-- ==== Sys2Proof/Word.lean ====
section
/-! DEFINITION. The words of the LC-340 and its numbered things: bytes, ports, planes, banks, colours and stream samples. -/

namespace Sys2Proof

/-- A byte of a frame, and every count the part keeps modulo 256 (0.7). -/
abbrev Byte := BitVec 8

/-- Control port 0, 1 or 2 (0.7). -/
abbrev Port := Fin 3

/-- Plane 0..15 (R1). -/
abbrev Plane := Fin 16

/-- Palette bank 0..3 (R23). -/
abbrev Bank := Fin 4

/-- A colour (r, g, b), each component 0..255 (0.7). -/
structure Colour where
  r : Byte
  g : Byte
  b : Byte
  deriving DecidableEq, Repr

/-- The colour (0, 0, 0). -/
def Colour.black : Colour := ⟨0, 0, 0⟩

/-- The grey (i, i, i) of R23 and R25. -/
def Colour.grey (i : Byte) : Colour := ⟨i, i, i⟩

/-- One sample of a stream: its 24-bit colour and its VALID level (R17). -/
structure Sample where
  colour : Colour
  valid : Bool
  deriving DecidableEq, Repr

end Sys2Proof
end

