-- ==== Sys2Proof/Syntax.lean ====
section
/-! DEFINITION. The commands of the LC-340: one constructor for each row of spec/opcode_table.json.

The first 24 rows are frame commands: the operands are the port, the frame's session byte and the frame's
payload bytes as they stand on the wire (R173), so that every form a processor can send is there. -/

namespace Sys2Proof

/-- What begins a transaction: a START, which comes when no transaction is in progress on the bus, or a repeated START,
which comes within one (R159). -/
inductive StartKind where
  | start
  | repeated
  deriving DecidableEq, Repr

/-- An address byte on a port's bus: what begins its transaction, and its eight bits (R159). -/
structure AddressByte where
  kind : StartKind
  byte : Byte
  deriving DecidableEq, Repr

/-- A row of the table of operations and events, with its operands (log entry 5). -/
inductive Instr where
  /-- STATUS (R171). -/
  | status (p : Port) (session : Byte) (payload : List Byte)
  /-- ATTACH (R104). -/
  | attach (p : Port) (session : Byte) (payload : List Byte)
  /-- DETACH (R108). -/
  | detach (p : Port) (session : Byte) (payload : List Byte)
  /-- EVICT (R109). -/
  | evict (p : Port) (session : Byte) (payload : List Byte)
  /-- CLAIM (R120). -/
  | claim (p : Port) (session : Byte) (payload : List Byte)
  /-- CLAIM of kind ANY-PLANE (R121); the number byte is ignored (R119). -/
  | claimAnyPlane (p : Port) (session : Byte) (number : Byte)
  /-- RELEASE (R125). -/
  | release (p : Port) (session : Byte) (payload : List Byte)
  /-- REVOKE (R130). -/
  | revoke (p : Port) (session : Byte) (payload : List Byte)
  /-- STAGE_PLANE (R56). -/
  | stagePlane (p : Port) (session : Byte) (payload : List Byte)
  /-- STAGE_COLOURS (R57). -/
  | stageColours (p : Port) (session : Byte) (payload : List Byte)
  /-- STAGE_ORDER (R58). -/
  | stageOrder (p : Port) (session : Byte) (payload : List Byte)
  /-- STAGE_SIGNATURE (R59). -/
  | stageSignature (p : Port) (session : Byte) (payload : List Byte)
  /-- STAGE_GUARD (R60). -/
  | stageGuard (p : Port) (session : Byte) (payload : List Byte)
  /-- STAGE_SCAN (R60). -/
  | stageScan (p : Port) (session : Byte) (payload : List Byte)
  /-- DISCARD (R65). -/
  | discard (p : Port) (session : Byte) (payload : List Byte)
  /-- SEAL (R68). -/
  | seal (p : Port) (session : Byte) (payload : List Byte)
  /-- WITHDRAW (R96). -/
  | withdraw (p : Port) (session : Byte) (payload : List Byte)
  /-- WAIT_FIELD (R49). -/
  | waitField (p : Port) (session : Byte) (payload : List Byte)
  /-- READ_NOTICES (R155). -/
  | readNotices (p : Port) (session : Byte) (payload : List Byte)
  /-- QUERY_PLANE (R21). -/
  | queryPlane (p : Port) (session : Byte) (payload : List Byte)
  /-- QUERY_ORDER (R22). -/
  | queryOrder (p : Port) (session : Byte) (payload : List Byte)
  /-- QUERY_COLOURS (R31). -/
  | queryColours (p : Port) (session : Byte) (payload : List Byte)
  /-- QUERY_SCAN (R51). -/
  | queryScan (p : Port) (session : Byte) (payload : List Byte)
  /-- QUERY_GUARD (R149). -/
  | queryGuard (p : Port) (session : Byte) (payload : List Byte)
  /-- A START or repeated START with a write address byte on port p's bus, and the data bytes that follow it (R161). -/
  | writeAddressMatch (p : Port) (address : AddressByte) (data : List Byte)
  /-- The end of port p's write transaction (R162). -/
  | frameTaken (p : Port)
  /-- A START or repeated START with a read address byte on port p's bus (R166). -/
  | readAddressMatch (p : Port) (address : AddressByte)
  /-- The end of port p's read transaction, after bytesRead bytes have been read (R166). -/
  | readEnd (p : Port) (bytesRead : Nat)
  /-- The 2 ms stretch limit of port p ends (R168). -/
  | stretchLimitExpiry (p : Port)
  /-- A 30 ms limit of port p's transaction ends (R169). -/
  | busHoldAbandon (p : Port)
  /-- NRESET goes low; the straps are sampled at these levels (R172). -/
  | nresetAssert (addrsel : Bool) (supsel : BitVec 2)
  /-- NRESET returns high (R41). -/
  | nresetRelease
  /-- Field Start (R37). -/
  | fieldStart
  /-- The completion of port p's WAIT_FIELD whose count has reached 0 (R50). -/
  | waitFieldCompletion (p : Port)
  /-- A low-to-high change of REF_IN (R42). -/
  | refInPulse
  /-- Active pixel (x, y) with the samples of both streams (R11, R17). -/
  | pixelCompose (x y : Nat) (a b : Sample)
  /-- Blank Start (R38). -/
  | blankStart
  /-- The report of the field's stream faults (R20). -/
  | streamFaultReport
  /-- The signature comparisons of a Blank Start (R144). -/
  | signatureCompare
  /-- Stage (a) of the open window (R112). -/
  | stageALapses
  /-- Stage (b) of the open window (R132). -/
  | stageBRevocations
  /-- Stage (c) takes the next batch (R82). -/
  | windowScanStep
  /-- The Applying batch is applied to the working copy and judged (R86). -/
  | batchValidation
  /-- The countdown that ends the window (R95). -/
  | waitCountdown
  /-- The TIMEOUT of port p's waiting SEAL (R95). -/
  | sealTimeout (p : Port)
  /-- A 20 ms lease tick (R106). -/
  | leaseTick
  /-- The expiry of port p's lease (R106). -/
  | leaseExpiry (p : Port)
  deriving DecidableEq, Repr

end Sys2Proof
end

