-- ==== Sys2Proof/Config.lean ====
section
/-! DEFINITION. The fixed sizes of the part, and the values its spec leaves open. -/

namespace Sys2Proof.Config

/-- Records of the Staging Pool (R52). -/
def poolSize : Nat := 96

/-- Records one port may have in use (R52). -/
def portCap : Nat := 48

/-- Batches the Commit Queue may hold (R75). -/
def queueSize : Nat := 8

/-- Batches of one port the Commit Queue may hold (R75). -/
def queuePortCap : Nat := 4

/-- Entries of a Batch Outcome History (R77). -/
def historySize : Nat := 8

/-- Records of a Notice Queue (R150). -/
def noticeSize : Nat := 16

/-- Records one READ_NOTICES delivers (R155). -/
def noticesPerRead : Nat := 7

/-- Planes that may be guarded (R6, R86). -/
def guardLimit : Nat := 4

/-- Windows a waiting SEAL may wait (R72). -/
def waitWindows : Nat := 32

/-- The farthest target a SEAL may name, in fields (R70). -/
def targetReach : Nat := 120

/-- The free values of log entry 15: bytes the spec gives no value for. Use n takes the n-th of them. -/
opaque unstatedByte : Nat → Byte

end Sys2Proof.Config
end

