-- ==== Sys2Proof/Machine/State.lean ====
section
/-! DEFINITION. The state of the LC-340 as plain data, and the state after device reset. -/

namespace Sys2Proof.Machine

/-! ### Live State: planes, scan settings, guards -/

/-- A stored rectangle, corners included, each coordinate 0..2047 (R1). -/
structure Rect where
  x0 : Fin 2048
  y0 : Fin 2048
  x1 : Fin 2048
  y1 : Fin 2048
  deriving DecidableEq, Repr

/-- A rectangle clipped to the active area (R3); an empty one is absent. -/
structure Clip where
  x0 : Nat
  y0 : Nat
  x1 : Nat
  y1 : Nat
  deriving DecidableEq, Repr

/-- Where a plane's colours come from (Table 1.1). -/
inductive Source where
  | fill
  | streamA
  | streamB
  deriving DecidableEq, Repr

/-- How a plane is combined, with the parameter the mode carries (R4). -/
inductive Mode where
  | opaqueMode
  | keyed (key : Colour)
  | blended (alpha : Fin 17)
  deriving DecidableEq, Repr

/-- The stored fields of a plane record (Table 1.1). Owner, guarded and held are read from their own tables. -/
structure PlaneRecord where
  enabled : Bool
  rect : Rect
  source : Source
  fill : Colour
  palette : Option Bank
  mode : Mode
  deriving DecidableEq, Repr

/-- How Stream B samples are read (Table 3.1). -/
inductive Format where
  | direct
  | indexed
  deriving DecidableEq, Repr

/-- The Scan Record (Table 3.1). -/
structure ScanRecord where
  width : Nat
  height : Nat
  hblank : Nat
  vblank : Nat
  follow : Bool
  lossMargin : Nat
  background : Colour
  format : Format
  deriving DecidableEq, Repr

/-- What reaching the limit does besides notifying (Table 8.1). -/
inductive GuardAction where
  | notify
  | substitute
  deriving DecidableEq, Repr

/-- Outcome of the last Blank Start at which a guard record existed (Table 8.1). -/
inductive SigResult where
  | notCompared
  | isMatch
  | mismatch
  deriving DecidableEq, Repr

/-- What the Signature Monitor noted of a guarded plane at Field Start (R142), and the signature it folds (R143). -/
structure SigNote where
  enabled : Bool
  clip : Option Clip
  signature : BitVec 32
  deriving DecidableEq, Repr

/-- A guard record (Table 8.1); its plane is its key in the Guard List. `note` is absent in a record made after
the last Field Start (R144, log entry 21). -/
structure GuardRecord where
  expected : Option (BitVec 32)
  latched : Option (BitVec 32)
  limit : Nat
  action : GuardAction
  runCount : Nat
  held : Bool
  lastSignature : Option (BitVec 32)
  lastResult : SigResult
  changed : Bool
  note : Option SigNote
  deriving DecidableEq, Repr

/-- The Live State (Table 0.1) with the Guard List (R137). The palette lists the entries that differ from their
reset contents, by bank × 256 + index, rising (R23, log entry 20). -/
structure Live where
  planes : Vector PlaneRecord 16
  order : List Plane
  palette : List (Nat × Colour)
  scan : ScanRecord
  pendingScan : ScanRecord
  pendingMark : Bool
  guards : Vector (Option GuardRecord) 16
  deriving DecidableEq, Repr

/-! ### Edits and batches -/

/-- A PLANE edit: a value for each field of its present-set (R56). -/
structure PlaneEdit where
  plane : Plane
  enabled : Option Bool
  rect : Option Rect
  source : Option Source
  fill : Option Colour
  palette : Option (Option Bank)
  mode : Option Mode
  deriving DecidableEq, Repr

/-- A SCAN edit: a value for each field of its present-set (R60). -/
structure ScanEdit where
  width : Option Nat
  height : Option Nat
  hblank : Option Nat
  vblank : Option Nat
  follow : Option Bool
  lossMargin : Option Nat
  background : Option Colour
  format : Option Format
  deriving DecidableEq, Repr

/-- The four forms of an ORDER edit (R58). -/
inductive OrderForm where
  | top
  | bottom
  | above (q : Plane)
  | below (q : Plane)
  deriving DecidableEq, Repr

/-- The six kinds of edit (Table 4.1). A SIGNATURE edit's absent expected value is disarm (R59). -/
inductive Edit where
  | plane (e : PlaneEdit)
  | colours (bank : Bank) (first : Nat) (colours : List Colour)
  | order (p : Plane) (form : OrderForm)
  | signature (p : Plane) (expected : Option (BitVec 32)) (limit : Nat) (action : GuardAction)
  | guard (p : Plane) (set : Bool)
  | scan (e : ScanEdit)
  deriving DecidableEq, Repr

/-- A plane or a bank. -/
inductive Resource where
  | plane (p : Plane)
  | bank (b : Bank)
  deriving DecidableEq, Repr

/-- Reasons of a rejection (Table 5.3, R84). -/
inductive Reason where
  | notOwner
  | badRect
  | bankNotHeld
  | guardFull
  | notGuarded
  | tooLarge
  deriving DecidableEq, Repr

/-- Validation's judgement of a working copy (R86). -/
inductive Verdict where
  | pass
  | fail (reason : Reason) (index : Nat) (resource : Option Resource)
  deriving DecidableEq, Repr

/-- The working copy of a batch while its edits are applied (R85), with what validation needs of the way: whether an
ORDER edit was clamped (R8), the last GUARD edit that set a guard on an unguarded plane, and the first SIGNATURE edit
that found no guard record (R86). -/
structure Work where
  live : Live
  clamped : Bool
  guardSet : Option Nat
  unguarded : Option (Nat × Plane)
  deriving DecidableEq, Repr

/-- The states of a batch in the queue (R76). -/
inductive BatchState where
  | queued
  | applying
  deriving DecidableEq, Repr

/-- A batch record (R72, R75). The model's own: `scanned`, the batch has been taken by this window's scan (log entry
22), and `timedOut`, the field of the window whose countdown brought the remaining wait to 0 (log entry 11). -/
structure Batch where
  port : Port
  session : Byte
  number : Byte
  edits : List Edit
  cost : Nat
  target : Option Byte
  wait : Bool
  remainingWait : Nat
  state : BatchState
  member : Bool
  reached : Bool
  scanned : Bool
  timedOut : Option Byte
  deriving DecidableEq, Repr

/-- How a batch left the queue (R76, R77). -/
inductive BatchOutcome where
  | applied (clamped : Bool)
  | rejected (reason : Reason) (index : Nat)
  | withdrawn
  | purged
  deriving DecidableEq, Repr

/-- An entry of a Batch Outcome History (R77). -/
structure HistoryEntry where
  number : Byte
  outcome : BatchOutcome
  field : Byte
  deriving DecidableEq, Repr

/-- What an open window has still to do (R78). -/
inductive WindowStage where
  | lapses
  | revocations
  | scan
  | countdown
  deriving DecidableEq, Repr

/-- An open commit window (R78, R80, R82). -/
structure Window where
  budget : Nat
  remaining : Nat
  field : Byte
  stage : WindowStage
  skipped : List Port
  deriving DecidableEq, Repr

/-! ### Ports, sessions, claims, notices -/

/-- Completion codes (Table 11.4). -/
inductive Completion where
  | ok | none | pending | frameError | unknownCommand | notAttached | lapsing | staleSession | notSupervisor
  | badArg | sessionEnding | attached | alreadyLapsing | owned | noneFree | notOwner | notHeld | revoking | inUse
  | nothingStaged | countMismatch | badCheck | tooLarge | badTarget | queueFull | poolFull | portCap | notGuarded
  | badRect | bankNotHeld | guardFull | applied | rejected | timeout | tooLate | noSuchBatch
  deriving DecidableEq, Repr

/-- A response frame (R175). -/
structure Response where
  completion : Completion
  lost : Bool
  code : Byte
  payload : List Byte
  deriving DecidableEq, Repr

/-- Port interface states (Table 10.2). -/
inductive PortState where
  | idle
  | receiving
  | executing
  | holding
  deriving DecidableEq, Repr

/-- The state a port left when Receiving began (Table 10.1). -/
inductive PriorState where
  | idle
  | holding
  deriving DecidableEq, Repr

/-- The transaction of a port that is in progress, as R161 and R166 to R169 tell them apart; with none in progress the port
listens for a START or repeated START (`free`), or, after an abandonment or a device reset, ignores the bus until the next
START (`ignoring`; R169, R172). The hold timer and the SCL-low timer of Table 10.1 run exactly while a transaction is in
progress (R169). -/
inductive Bus where
  | free
  | ignoring
  | writing
  | writeRefused
  | readHeld
  | readNone
  | readPending (code : Byte)
  | stretching
  deriving DecidableEq, Repr

/-- A Control Port Interface (Table 10.1). -/
structure Cpi where
  state : PortState
  buffer : List Byte
  long : Bool
  prior : PriorState
  slot : Option Response
  inFlight : Option Byte
  pendingGiven : Bool
  lostMark : Bool
  bus : Bus
  deriving DecidableEq, Repr

/-- What an owning block does with a command it takes (R164): it completes it, or holds it in flight. -/
inductive Reply where
  | done (completion : Completion) (payload : List Byte)
  | inFlight
  deriving DecidableEq, Repr

/-- Session states (Table 6.1). -/
inductive SessionState where
  | detached
  | attached
  | lapsing
  deriving DecidableEq, Repr

/-- Roles (Table 6.1). -/
inductive Role where
  | none
  | member
  | supervisor
  deriving DecidableEq, Repr

/-- Lapse causes (Table 6.1). -/
inductive LapseCause where
  | none
  | expired
  | detached
  | evicted
  deriving DecidableEq, Repr

/-- A Session Table entry (Table 6.1). -/
structure Session where
  state : SessionState
  number : Byte
  role : Role
  interval : Byte
  remaining : Byte
  inLapseSet : Bool
  cause : LapseCause
  purged : Nat
  deriving DecidableEq, Repr

/-- A Claim Table entry (Table 7.1). -/
inductive Claim where
  | free
  | held (p : Port)
  | revoking (p : Port)
  deriving DecidableEq, Repr

/-- A port's part of the Staging Store (R54, R64). -/
structure Staging where
  list : List Edit
  check : BitVec 16
  deriving DecidableEq, Repr

/-- The eleven notice kinds (Table 9.2). -/
inductive NoticeKind where
  | batchApplied
  | batchRejected
  | sessionEnded
  | portLapsed
  | claimRevoked
  | scanChanged
  | referenceLost
  | referenceFound
  | streamFault
  | signatureMismatch
  | signatureLimit
  deriving DecidableEq, Repr

/-- A notice record (Table 9.1, R176). -/
structure Notice where
  kind : NoticeKind
  field : Byte
  subject : Option Port
  batch : Option Byte
  resource : Option Resource
  d0 : Byte
  d1 : Byte
  d2 : Byte
  deriving DecidableEq, Repr

/-- A Notice Queue, oldest record first (R150). -/
structure NoticeQueue where
  records : List Notice
  dropped : Nat
  deriving DecidableEq, Repr

/-! ### Timing, composition, signature monitor -/

/-- The part of a field the counters stand in (R36). -/
inductive Region where
  | active
  | blanking
  deriving DecidableEq, Repr

/-- Reference states (Table 3.2). -/
inductive RefState where
  | free
  | holdover
  | locked
  deriving DecidableEq, Repr

/-- A waiting WAIT_FIELD (R49). `due` is the field at whose Field Start the count reached 0 (R50, log entry 11). -/
structure Waiter where
  remaining : Nat
  due : Option Byte
  deriving DecidableEq, Repr

/-- The Timing Generator. `line` counts active lines, or blanking lines, of the field; `pixel` is the pixel period of
the line that runs now: the PCLK edge that begins it has been taken, the one that ends it comes next (R36). -/
structure Timing where
  region : Region
  line : Nat
  pixel : Nat
  field : Byte
  refState : RefState
  pendingRef : Bool
  lastBlanking : Nat
  waiters : Vector (Option Waiter) 3
  deriving DecidableEq, Repr

/-- What the Compose Pipeline took at Field Start (R10). -/
structure Snapshot where
  planes : Vector PlaneRecord 16
  order : List Plane
  palette : List (Nat × Colour)
  scan : ScanRecord
  held : Vector Bool 16
  owners : Vector (Option Port) 16
  deriving DecidableEq, Repr

/-- The two input streams. -/
inductive Stream where
  | a
  | b
  deriving DecidableEq, Repr

/-- A pixel while the covering planes are walked (R11), with the stream fault sets (R19). -/
structure Walk where
  colour : Colour
  faultA : Vector (Option Plane) 3
  faultB : Vector (Option Plane) 3
  deriving DecidableEq, Repr

/-- The levels of OUT_D, OUT_DE, OUT_HS and OUT_VS in one pixel period. -/
structure OutWord where
  data : Colour
  de : Bool
  hs : Bool
  vs : Bool
  deriving DecidableEq, Repr

/-- The four pixel periods between the counters and the panel (R40): `pins` is on the pins now, `newest` is the period
just gone by. The colour of an active pixel comes in one period later, when its samples have been taken: the `newest` word
carries (0, 0, 0) until then. -/
structure OutPipe where
  pins : OutWord
  second : OutWord
  third : OutWord
  newest : OutWord
  deriving DecidableEq, Repr

/-- The Compose Pipeline: snapshot (R10), stream fault sets (R19), whether the report of the field is due (R20), the
stream pins as last presented (log entry 3), and the output delay (R40). -/
structure Compose where
  snapshot : Snapshot
  faultA : Vector (Option Plane) 3
  faultB : Vector (Option Plane) 3
  reportDue : Bool
  sampleA : Sample
  sampleB : Sample
  pipe : OutPipe
  deriving DecidableEq, Repr

/-- The Signature Monitor's own notes: this field began with a new Scan Record (R142); the comparison of the field
just ended is due (R144). -/
structure Monitor where
  newScan : Bool
  compareDue : Bool
  deriving DecidableEq, Repr

/-! ### The machine -/

/-- The state of the LC-340, and the commands that wait (first in, first out). -/
structure State where
  /-- NRESET is high. -/
  nreset : Bool
  /-- ADDRSEL as sampled: high (R159). -/
  addrsel : Bool
  /-- SUPSEL[1:0] as sampled (R102). -/
  supsel : BitVec 2
  cpis : Vector Cpi 3
  notices : Vector NoticeQueue 3
  sessions : Vector Session 3
  planeClaims : Vector Claim 16
  bankClaims : Vector Claim 4
  staging : Vector Staging 3
  queue : List Batch
  window : Option Window
  histories : Vector (List HistoryEntry) 3
  nextBatch : Vector Byte 3
  live : Live
  timing : Timing
  compose : Compose
  monitor : Monitor
  /-- How many free values have been used (log entry 15). -/
  freeIndex : Nat
  pending : List Instr
  deriving DecidableEq, Repr

/-- No command of the part stops it with a fault: every refusal the spec gives is an answer the part makes. Nothing
raises this type's values, since it has none (safe). -/
inductive Fault where
  deriving DecidableEq, Repr

/-- Why a command has no meaning in the model. -/
inductive Refusal where
  /-- Raised by exec's arm of a command that is not modelled; no arm raises it now (safe). -/
  | notModelled (mnemonic : String)
  deriving DecidableEq, Repr

/-! ### Device reset -/

/-- A plane record after device reset (Table 1.1). -/
def PlaneRecord.reset : PlaneRecord :=
  { enabled := false, rect := ⟨0, 0, 0, 0⟩, source := .fill, fill := .black, palette := none, mode := .opaqueMode }

/-- The Scan Record after device reset (Table 3.1). -/
def ScanRecord.reset : ScanRecord :=
  { width := 640, height := 480, hblank := 160, vblank := 45, follow := false, lossMargin := 16,
    background := .black, format := .direct }

/-- The Live State after device reset (R1, R6, R23, R34, R136). -/
def Live.reset : Live :=
  { planes := Vector.replicate 16 .reset
    order := [0, 1, 2, 3, 4, 5, 6, 7, 8, 9, 10, 11, 12, 13, 14, 15]
    palette := []
    scan := .reset
    pendingScan := .reset
    pendingMark := false
    guards := Vector.replicate 16 none }

/-- A CPI after device reset (Table 10.1): it waits for the next START on its bus (R172). -/
def Cpi.reset : Cpi :=
  { state := .idle, buffer := [], long := false, prior := .idle, slot := none, inFlight := none,
    pendingGiven := false, lostMark := false, bus := .ignoring }

/-- A Session Table entry after device reset (Table 6.1). -/
def Session.reset : Session :=
  { state := .detached, number := 0, role := .none, interval := 0, remaining := 0, inLapseSet := false,
    cause := .none, purged := 0 }

/-- An empty Staged List and its check (R54, R64). -/
def Staging.empty : Staging := { list := [], check := 0xFFFF }

/-- An empty Notice Queue (R150). -/
def NoticeQueue.empty : NoticeQueue := { records := [], dropped := 0 }

/-- The Timing Generator after device reset (R41). -/
def Timing.reset : Timing :=
  { region := .active, line := 0, pixel := 0, field := 0, refState := .free, pendingRef := false,
    lastBlanking := 0, waiters := Vector.replicate 3 none }

/-- The outputs while NRESET is low (R16, R41). -/
def OutWord.low : OutWord := { data := .black, de := false, hs := false, vs := false }

/-- The Compose Pipeline after device reset, with the snapshot of the reset contents (R16). -/
def Compose.reset : Compose :=
  { snapshot :=
      { planes := Live.reset.planes, order := Live.reset.order, palette := Live.reset.palette,
        scan := Live.reset.scan, held := Vector.replicate 16 false, owners := Vector.replicate 16 none }
    faultA := Vector.replicate 3 none
    faultB := Vector.replicate 3 none
    reportDue := false
    sampleA := ⟨.black, false⟩
    sampleB := ⟨.black, false⟩
    pipe := ⟨.low, .low, .low, .low⟩ }

/-- The device reset state of every block with NRESET at the given level and the straps as sampled (R172 and the
reset values of every chapter). -/
def State.deviceReset (nreset addrsel : Bool) (supsel : BitVec 2) (pending : List Instr) : State :=
  { nreset, addrsel, supsel, pending
    cpis := Vector.replicate 3 .reset
    notices := Vector.replicate 3 .empty
    sessions := Vector.replicate 3 .reset
    planeClaims := Vector.replicate 16 .free
    bankClaims := Vector.replicate 4 .free
    staging := Vector.replicate 3 .empty
    queue := []
    window := none
    histories := Vector.replicate 3 []
    nextBatch := Vector.replicate 3 1
    live := .reset
    timing := .reset
    compose := .reset
    monitor := { newScan := false, compareDue := false }
    freeIndex := 0 }

/-- The machine right after device reset: NRESET has returned high and Field Start of field 0 has been taken, which
leaves every reset value as it is (R41, R39; log entry 1). The straps are low (log entry 2). -/
def State.reset : State := State.deviceReset true false 0 []

end Sys2Proof.Machine
end

