-- ==== Sys2Proof/Machine/Flags.lean ====
section
/-! DEFINITION. Code values, flag bytes, changed-field flags, and the two folds (chapter 11, R64, R143, R47). -/

namespace Sys2Proof.Machine

/-- A flag of one byte: 0 clear, 1 set (Table 11.5). -/
def flagByte (b : Bool) : Byte := if b then 1 else 0

/-- The code of a completion (Table 11.4). -/
def Completion.code : Completion → Byte
  | .ok => 0x00
  | .none => 0x01
  | .pending => 0x02
  | .frameError => 0x03
  | .unknownCommand => 0x04
  | .notAttached => 0x05
  | .lapsing => 0x06
  | .staleSession => 0x07
  | .notSupervisor => 0x08
  | .badArg => 0x09
  | .sessionEnding => 0x0A
  | .attached => 0x10
  | .alreadyLapsing => 0x11
  | .owned => 0x20
  | .noneFree => 0x21
  | .notOwner => 0x22
  | .notHeld => 0x23
  | .revoking => 0x24
  | .inUse => 0x25
  | .nothingStaged => 0x30
  | .countMismatch => 0x31
  | .badCheck => 0x32
  | .tooLarge => 0x33
  | .badTarget => 0x34
  | .queueFull => 0x35
  | .poolFull => 0x36
  | .portCap => 0x37
  | .notGuarded => 0x38
  | .badRect => 0x39
  | .bankNotHeld => 0x3A
  | .guardFull => 0x3B
  | .applied => 0x40
  | .rejected => 0x41
  | .timeout => 0x42
  | .tooLate => 0x43
  | .noSuchBatch => 0x44

/-- A rejection reason is written with the code of the completion of the same name (chapter 11.2). -/
def Reason.completion : Reason → Completion
  | .notOwner => .notOwner
  | .badRect => .badRect
  | .bankNotHeld => .bankNotHeld
  | .guardFull => .guardFull
  | .notGuarded => .notGuarded
  | .tooLarge => .tooLarge

/-- The byte of a rejection reason. -/
def Reason.code (r : Reason) : Byte := r.completion.code

/-- Session state codes (Table 11.5). -/
def SessionState.code : SessionState → Byte
  | .detached => 0
  | .attached => 1
  | .lapsing => 2

/-- Role codes (Table 11.5). -/
def Role.code : Role → Byte
  | .none => 0
  | .member => 1
  | .supervisor => 2

/-- Lapse cause codes (Table 11.5). -/
def LapseCause.code : LapseCause → Byte
  | .none => 0
  | .expired => 1
  | .detached => 2
  | .evicted => 3

/-- Prior state codes (Table 11.5). -/
def PriorState.code : PriorState → Byte
  | .idle => 0
  | .holding => 1

/-- Reference state codes (Table 11.5). -/
def RefState.code : RefState → Byte
  | .free => 0
  | .holdover => 1
  | .locked => 2

/-- Action codes (Table 11.5). -/
def GuardAction.code : GuardAction → Byte
  | .notify => 0
  | .substitute => 1

/-- Last result codes, bits 6:5 of a QUERY_GUARD entry's flags byte (chapter 11.2). -/
def SigResult.code : SigResult → Byte
  | .notCompared => 0
  | .isMatch => 1
  | .mismatch => 2

/-- Source codes (Table 11.2). -/
def Source.code : Source → Byte
  | .fill => 0
  | .streamA => 1
  | .streamB => 2

/-- Format codes (Table 11.2). -/
def Format.code : Format → Byte
  | .direct => 0
  | .indexed => 1

/-- Mode codes (Table 11.2). -/
def Mode.code : Mode → Byte
  | .opaqueMode => 0
  | .keyed _ => 1
  | .blended _ => 2

/-- Stream codes in the detail of STREAM_FAULT (Table 11.6). -/
def Stream.code : Stream → Byte
  | .a => 0
  | .b => 1

/-- Notice kind codes (Table 11.6). -/
def NoticeKind.code : NoticeKind → Byte
  | .batchApplied => 0x01
  | .batchRejected => 0x02
  | .sessionEnded => 0x03
  | .portLapsed => 0x04
  | .claimRevoked => 0x05
  | .scanChanged => 0x06
  | .referenceLost => 0x07
  | .referenceFound => 0x08
  | .streamFault => 0x09
  | .signatureMismatch => 0x0A
  | .signatureLimit => 0x0B

/-- Outcome codes (Table 11.5); 5 is "in progress", which no history entry holds. -/
def BatchOutcome.code : BatchOutcome → Byte
  | .applied _ => 1
  | .rejected _ _ => 2
  | .withdrawn => 3
  | .purged => 4

/-- A port number as a byte, 0xFF for none (chapter 11.2). -/
def portByte : Option Port → Byte
  | some p => BitVec.ofNat 8 p.val
  | none => 0xFF

/-- A palette field as a byte, 0xFF for none (chapter 11.2). -/
def paletteByte : Option Bank → Byte
  | some b => BitVec.ofNat 8 b.val
  | none => 0xFF

/-- A resource byte: a plane as 0..15, a bank as 0x80 + bank, 0xFF when absent (chapter 11.2). -/
def resourceByte : Option Resource → Byte
  | some (.plane p) => BitVec.ofNat 8 p.val
  | some (.bank b) => BitVec.ofNat 8 (0x80 + b.val)
  | none => 0xFF

/-- A number as one byte. -/
def byteOf (n : Nat) : Byte := BitVec.ofNat 8 n

/-- A 16-bit value, most significant byte first (R173). -/
def be16 (n : Nat) : List Byte := [byteOf (n / 256), byteOf n]

/-- A 32-bit value, most significant byte first (R173, R177). -/
def be32 (v : BitVec 32) : List Byte :=
  [byteOf (v.toNat / 16777216), byteOf (v.toNat / 65536), byteOf (v.toNat / 256), byteOf v.toNat]

/-- A colour as three bytes (R173). -/
def Colour.bytes (c : Colour) : List Byte := [c.r, c.g, c.b]

/-- A rectangle as eight bytes (Table 11.2). -/
def Rect.bytes (r : Rect) : List Byte :=
  be16 r.x0.val ++ be16 r.y0.val ++ be16 r.x1.val ++ be16 r.y1.val

/-- The parameter of QUERY_PLANE: the key colour, the alpha and two 0 bytes, or three 0 bytes (chapter 11.2). -/
def Mode.parameterBytes : Mode → List Byte
  | .opaqueMode => [0, 0, 0]
  | .keyed key => Colour.bytes key
  | .blended alpha => [byteOf alpha.val, 0, 0]

/-- A full Scan block, 13 bytes (Table 11.2). -/
def ScanRecord.bytes (r : ScanRecord) : List Byte :=
  be16 r.width ++ be16 r.height ++ be16 r.hblank ++ [byteOf r.vblank, flagByte r.follow, byteOf r.lossMargin]
    ++ Colour.bytes r.background ++ [r.format.code]

/-- A notice record's 8 bytes (R176). -/
def Notice.bytes (n : Notice) : List Byte :=
  [n.kind.code, n.field, portByte n.subject, n.batch.getD 0, resourceByte n.resource, n.d0, n.d1, n.d2]

/-- A response frame's bytes (R175). -/
def Response.bytes (r : Response) : List Byte :=
  [r.completion.code, flagByte r.lost, r.code, byteOf r.payload.length] ++ r.payload

/-- The target form and target field bytes; the field byte of an absent target is 0 (chapter 11.2). -/
def targetBytes : Option Byte → List Byte
  | none => [0, 0]
  | some n => [1, n]

/-- What a SEAL's acceptance carries: batch number, cost and target (Table 11.3). -/
def Batch.acceptance (b : Batch) : List Byte := b.number :: be16 b.cost ++ targetBytes b.target

/-- One fold of the running check (R64, R177): rotate left by one, XOR the byte into bits 7:0. -/
def foldCheck (check : BitVec 16) (byte : Byte) : BitVec 16 := check.rotateLeft 1 ^^^ byte.setWidth 16

/-- The running check after a payload (R64). -/
def foldChecks : BitVec 16 → List Byte → BitVec 16
  | check, [] => check
  | check, byte :: rest => foldChecks (foldCheck check byte) rest

/-- The 24-bit value of a colour in the low bits of a signature word (R143). -/
def Colour.word (c : Colour) : BitVec 32 := BitVec.ofNat 32 (c.r.toNat * 65536 + c.g.toNat * 256 + c.b.toNat)

/-- One fold of a signature (R143, R177): rotate left by one, XOR the colour into bits 23:0. -/
def foldSignature (signature : BitVec 32) (c : Colour) : BitVec 32 := signature.rotateLeft 1 ^^^ Colour.word c

/-- The SCAN_CHANGED detail: one flag for each group of fields that differ (Tables 3.4 and 11.6); bits
7:5, which the tables do not give, are 0 (log entry 34). -/
def scanChangedFlags (old new : ScanRecord) : Byte :=
  (if old.width ≠ new.width ∨ old.height ≠ new.height then 1 else 0)
    ||| (if old.hblank ≠ new.hblank ∨ old.vblank ≠ new.vblank then 2 else 0)
    ||| (if old.follow ≠ new.follow ∨ old.lossMargin ≠ new.lossMargin then 4 else 0)
    ||| (if old.background ≠ new.background then 8 else 0)
    ||| (if old.format ≠ new.format then 16 else 0)

/-- The flags byte of a QUERY_GUARD entry (chapter 11.2); bit 7, which it does not give, is 0 (log entry 34). -/
def guardFlags (enabled : Bool) (r : GuardRecord) : Byte :=
  flagByte enabled
    ||| (if r.expected.isSome then (2 : Byte) else 0)
    ||| (if r.held then (4 : Byte) else 0)
    ||| (if r.lastSignature.isSome then (8 : Byte) else 0)
    ||| (if r.action = .substitute then (16 : Byte) else 0)
    ||| (r.lastResult.code <<< 5)

end Sys2Proof.Machine
end

