-- ==== Sys2Proof/Machine/Operands.lean ====
section
/-! DEFINITION. Command codes, and the operands that a command frame's payload carries (chapter 11, R56 to R60). -/

namespace Sys2Proof.Machine

/-- The commands of Table 11.1. -/
inductive Command where
  | status | attach | detach | evict | claim | release | revoke
  | stagePlane | stageColours | stageOrder | stageSignature | stageGuard | stageScan
  | discard | seal | withdraw | waitField | readNotices
  | queryPlane | queryOrder | queryColours | queryScan | queryGuard
  deriving DecidableEq, Repr

/-- The code of a command (Table 11.1). -/
def Command.code : Command → Byte
  | .status => 0x01
  | .attach => 0x02
  | .detach => 0x03
  | .evict => 0x04
  | .claim => 0x05
  | .release => 0x06
  | .revoke => 0x07
  | .stagePlane => 0x10
  | .stageColours => 0x11
  | .stageOrder => 0x12
  | .stageSignature => 0x13
  | .stageGuard => 0x14
  | .stageScan => 0x15
  | .discard => 0x18
  | .seal => 0x19
  | .withdraw => 0x1A
  | .waitField => 0x20
  | .readNotices => 0x21
  | .queryPlane => 0x30
  | .queryOrder => 0x31
  | .queryColours => 0x32
  | .queryScan => 0x33
  | .queryGuard => 0x34

/-- Every command of Table 11.1. -/
def Command.all : List Command :=
  [.status, .attach, .detach, .evict, .claim, .release, .revoke, .stagePlane, .stageColours, .stageOrder,
   .stageSignature, .stageGuard, .stageScan, .discard, .seal, .withdraw, .waitField, .readNotices,
   .queryPlane, .queryOrder, .queryColours, .queryScan, .queryGuard]

/-- The command a code names, none for a code that is not in Table 11.1 (R173). -/
def Command.ofCode (code : Byte) : Option Command := Command.all.find? fun c => c.code == code

/-- Commands that only the supervisor may send (R164). -/
def Command.supervisorOnly : Command → Bool
  | .stageGuard | .stageScan | .evict | .revoke => true
  | .status | .attach | .detach | .claim | .release | .stagePlane | .stageColours | .stageOrder | .stageSignature
  | .discard | .seal | .withdraw | .waitField | .readNotices | .queryPlane | .queryOrder | .queryColours
  | .queryScan | .queryGuard => false

/-- A 16-bit value, most significant byte first (R173). -/
def nat16 (hi lo : Byte) : Nat := hi.toNat * 256 + lo.toNat

/-- A plane number 0..15. -/
def planeOf (b : Byte) : Option Plane := if h : b.toNat < 16 then some ⟨b.toNat, h⟩ else none

/-- A bank number 0..3. -/
def bankOf (b : Byte) : Option Bank := if h : b.toNat < 4 then some ⟨b.toNat, h⟩ else none

/-- A port number 0..2. -/
def portOf (b : Byte) : Option Port := if h : b.toNat < 3 then some ⟨b.toNat, h⟩ else none

/-- A flag of one byte: 0 clear, 1 set, any other value undefined (Table 11.5). -/
def flagOf (b : Byte) : Option Bool := if b = 0 then some false else if b = 1 then some true else none

/-- A coordinate 0..2047 (R56). -/
def coordOf (hi lo : Byte) : Option (Fin 2048) :=
  if h : nat16 hi lo < 2048 then some ⟨nat16 hi lo, h⟩ else none

/-- A 32-bit value from four bytes, most significant first (R173). -/
def word32 (a b c d : Byte) : BitVec 32 :=
  BitVec.ofNat 32 (a.toNat * 16777216 + b.toNat * 65536 + c.toNat * 256 + d.toNat)

/-- A number in a range, ends included. -/
def inRange (lo hi n : Nat) : Option Nat := if lo ≤ n ∧ n ≤ hi then some n else none

/-- A claim's kind and number: PLANE 0..15 or BANK 0..3 (R119, R124, R129). -/
def resourceOf (kind number : Byte) : Option Resource :=
  if kind = 0 then (planeOf number).map .plane
  else if kind = 1 then (bankOf number).map .bank
  else none

/-! ### The parts of a PLANE or SCAN edit (R174) -/

/-- The first n bytes as a part when its mask bit is set, and the bytes that follow. -/
def takePart (present : Bool) (n : Nat) (bytes : List Byte) : Option (List Byte) × List Byte :=
  if present then (some (bytes.take n), bytes.drop n) else (none, bytes)

/-- The value of a part: absent when the part is, undefined when its bytes are. -/
def partValue {α : Type} (decode : List Byte → Option α) : Option (List Byte) → Option (Option α)
  | none => some none
  | some bytes => (decode bytes).map some

/-- A part of one byte. -/
def oneByte {α : Type} (decode : Byte → Option α) : List Byte → Option α
  | [b] => decode b
  | _ => none

/-- A part of two bytes in a range. -/
def rangePart (lo hi : Nat) : List Byte → Option Nat
  | [a, b] => inRange lo hi (nat16 a b)
  | _ => none

/-- A rectangle part: each coordinate in 0..2047 (R56). The order of the corners is judged in the window. -/
def rectPart : List Byte → Option Rect
  | [a, b, c, d, e, f, g, h] => do
    let x0 ← coordOf a b
    let y0 ← coordOf c d
    let x1 ← coordOf e f
    let y1 ← coordOf g h
    pure ⟨x0, y0, x1, y1⟩
  | _ => none

/-- A source byte (Table 11.2). -/
def sourceOf (b : Byte) : Option Source :=
  if b = 0 then some .fill else if b = 1 then some .streamA else if b = 2 then some .streamB else none

/-- A format byte (Table 11.2). -/
def formatOf (b : Byte) : Option Format :=
  if b = 0 then some .direct else if b = 1 then some .indexed else none

/-- A colour part. -/
def colourPart : List Byte → Option Colour
  | [r, g, b] => some ⟨r, g, b⟩
  | _ => none

/-- A palette byte: a bank 0..3, or 0xFF for none (Table 11.2). -/
def palettePart (b : Byte) : Option (Option Bank) := if b = 0xFF then some none else (bankOf b).map some

/-- A mode part: Opaque, Keyed with a key colour, Blended with an alpha 0..16 (Table 11.2). -/
def modePart : List Byte → Option Mode
  | [m] => if m = 0 then some .opaqueMode else none
  | [m, r, g, b] => if m = 1 then some (.keyed ⟨r, g, b⟩) else none
  | [m, a] => if h : m = 2 ∧ a.toNat < 17 then some (.blended ⟨a.toNat, h.2⟩) else none
  | _ => none

/-- The bytes a mode part takes, by its first byte; an undefined mode counts as one byte (R174). -/
def modeSize (m : Byte) : Nat := if m = 1 then 4 else if m = 2 then 2 else 1

/-- The sizes of the PLANE parts before the mode part (Table 11.2). -/
def planeFixedSize (mask : Byte) : Nat :=
  (if mask.getLsbD 0 then 1 else 0) + (if mask.getLsbD 1 then 8 else 0) + (if mask.getLsbD 2 then 1 else 0)
    + (if mask.getLsbD 3 then 3 else 0) + (if mask.getLsbD 4 then 1 else 0)

/-- The bytes that the parts of a PLANE edit take; absent when it cannot be reckoned, for a mask with bit 6 or 7 set
(R61) or a mode part that is not there. -/
def planePartsSize (mask : Byte) (parts : List Byte) : Option Nat :=
  if mask.getLsbD 6 || mask.getLsbD 7 then none
  else if mask.getLsbD 5 then (parts[planeFixedSize mask]?).map fun m => planeFixedSize mask + modeSize m
  else some (planeFixedSize mask)

/-- The PLANE edit of a payload whose length has been checked (R56, R174); absent when a field range fails. -/
def planeEditOf (plane : Plane) (mask : Byte) (parts : List Byte) : Option PlaneEdit :=
  if mask = 0 then none
  else
    let (enabled, parts) := takePart (mask.getLsbD 0) 1 parts
    let (rect, parts) := takePart (mask.getLsbD 1) 8 parts
    let (source, parts) := takePart (mask.getLsbD 2) 1 parts
    let (fill, parts) := takePart (mask.getLsbD 3) 3 parts
    let (palette, parts) := takePart (mask.getLsbD 4) 1 parts
    let (mode, _) := takePart (mask.getLsbD 5) 4 parts
    do
      let enabled ← partValue (oneByte flagOf) enabled
      let rect ← partValue rectPart rect
      let source ← partValue (oneByte sourceOf) source
      let fill ← partValue colourPart fill
      let palette ← partValue (oneByte palettePart) palette
      let mode ← partValue modePart mode
      pure { plane, enabled, rect, source, fill, palette, mode }

/-- The bytes that the parts of a SCAN edit take (Table 11.2). -/
def scanPartsSize (mask : Byte) : Nat :=
  (if mask.getLsbD 0 then 2 else 0) + (if mask.getLsbD 1 then 2 else 0) + (if mask.getLsbD 2 then 2 else 0)
    + (if mask.getLsbD 3 then 1 else 0) + (if mask.getLsbD 4 then 1 else 0) + (if mask.getLsbD 5 then 1 else 0)
    + (if mask.getLsbD 6 then 3 else 0) + (if mask.getLsbD 7 then 1 else 0)

/-- The SCAN edit of a payload whose length has been checked (R60, R174); absent when a field range fails. -/
def scanEditOf (mask : Byte) (parts : List Byte) : Option ScanEdit :=
  if mask = 0 then none
  else
    let (width, parts) := takePart (mask.getLsbD 0) 2 parts
    let (height, parts) := takePart (mask.getLsbD 1) 2 parts
    let (hblank, parts) := takePart (mask.getLsbD 2) 2 parts
    let (vblank, parts) := takePart (mask.getLsbD 3) 1 parts
    let (follow, parts) := takePart (mask.getLsbD 4) 1 parts
    let (lossMargin, parts) := takePart (mask.getLsbD 5) 1 parts
    let (background, parts) := takePart (mask.getLsbD 6) 3 parts
    let (format, _) := takePart (mask.getLsbD 7) 1 parts
    do
      let width ← partValue (rangePart 16 2048) width
      let height ← partValue (rangePart 16 2048) height
      let hblank ← partValue (rangePart 16 1024) hblank
      let vblank ← partValue (oneByte fun b => inRange 4 255 b.toNat) vblank
      let follow ← partValue (oneByte flagOf) follow
      let lossMargin ← partValue (oneByte fun b => inRange 1 255 b.toNat) lossMargin
      let background ← partValue colourPart background
      let format ← partValue (oneByte formatOf) format
      pure { width, height, hblank, vblank, follow, lossMargin, background, format }

/-! ### The other edits -/

/-- Colours from a run of bytes, three for each. -/
def coloursOf : List Byte → List Colour
  | r :: g :: b :: rest => ⟨r, g, b⟩ :: coloursOf rest
  | _ => []

/-- An ORDER form and its q byte, which TOP and BOTTOM ignore (R58, Table 11.5). -/
def orderFormOf (p : Plane) (form q : Byte) : Option OrderForm :=
  if form = 0 then some .top
  else if form = 1 then some .bottom
  else
    match planeOf q with
    | none => none
    | some q =>
      if q = p then none
      else if form = 2 then some (.above q)
      else if form = 3 then some (.below q)
      else none

/-- An action byte (Table 11.5). -/
def actionOf (b : Byte) : Option GuardAction :=
  if b = 0 then some .notify else if b = 1 then some .substitute else none

/-- An expected form with its value; the value of a disarm is ignored (R59, Table 11.1). -/
def expectedOf (form : Byte) (value : BitVec 32) : Option (Option (BitVec 32)) :=
  if form = 0 then some none else if form = 1 then some (some value) else none

/-- A target form with its field; the field of NEXT is ignored (R67, Table 11.1). -/
def targetOf (form field : Byte) : Option (Option Byte) :=
  if form = 0 then some none else if form = 1 then some (some field) else none

/-- The arguments of SEAL (R67). -/
structure SealArgs where
  count : Nat
  check : BitVec 16
  target : Option Byte
  wait : Bool
  deriving DecidableEq, Repr

/-- SEAL's payload (Table 11.1); absent when an argument does not decode (R67). -/
def sealArgsOf : List Byte → Option SealArgs
  | [count, hi, lo, form, field, wait] => do
    let target ← targetOf form field
    let wait ← flagOf wait
    pure { count := count.toNat, check := BitVec.ofNat 16 (nat16 hi lo), target, wait }
  | _ => none

/-! ### The payload of a STAGE frame, written from Tables 11.1, 11.2 and 11.5 -/

/-- A present part's bytes, nothing when it is absent. -/
def partBytes {α : Type} (bytes : α → List Byte) : Option α → List Byte
  | some a => bytes a
  | none => []

/-- A mask bit. -/
def maskBit {α : Type} (value : Byte) : Option α → Byte
  | some _ => value
  | none => 0

/-- The bytes of a mode part (Table 11.2). -/
def modeBytes : Mode → List Byte
  | .opaqueMode => [0]
  | .keyed key => 1 :: Colour.bytes key
  | .blended alpha => [2, byteOf alpha.val]

/-- The payload of STAGE_PLANE (R174). -/
def PlaneEdit.payload (e : PlaneEdit) : List Byte :=
  [byteOf e.plane.val,
    maskBit 1 e.enabled ||| maskBit 2 e.rect ||| maskBit 4 e.source ||| maskBit 8 e.fill ||| maskBit 16 e.palette
      ||| maskBit 32 e.mode]
    ++ partBytes (fun b => [flagByte b]) e.enabled ++ partBytes Rect.bytes e.rect
    ++ partBytes (fun x => [Source.code x]) e.source ++ partBytes Colour.bytes e.fill
    ++ partBytes (fun x => [paletteByte x]) e.palette ++ partBytes modeBytes e.mode

/-- The payload of STAGE_SCAN (R174). -/
def ScanEdit.payload (e : ScanEdit) : List Byte :=
  [maskBit 1 e.width ||| maskBit 2 e.height ||| maskBit 4 e.hblank ||| maskBit 8 e.vblank ||| maskBit 16 e.follow
      ||| maskBit 32 e.lossMargin ||| maskBit 64 e.background ||| maskBit 128 e.format]
    ++ partBytes be16 e.width ++ partBytes be16 e.height ++ partBytes be16 e.hblank
    ++ partBytes (fun n => [byteOf n]) e.vblank ++ partBytes (fun b => [flagByte b]) e.follow
    ++ partBytes (fun n => [byteOf n]) e.lossMargin ++ partBytes Colour.bytes e.background
    ++ partBytes (fun x => [Format.code x]) e.format

/-- The bytes of a run of colours. -/
def coloursBytes : List Colour → List Byte
  | [] => []
  | c :: rest => Colour.bytes c ++ coloursBytes rest

/-- The form byte of an ORDER edit and its q byte; the q byte of TOP and BOTTOM is ignored, whatever it is (R58). -/
def orderBytes (ignored : Byte) : OrderForm → List Byte
  | .top => [0, ignored]
  | .bottom => [1, ignored]
  | .above q => [2, byteOf q.val]
  | .below q => [3, byteOf q.val]

/-- The form byte and value of an expected value; the value of a disarm is ignored, whatever it is (R59). -/
def expectedBytes (ignored : BitVec 32) : Option (BitVec 32) → List Byte
  | none => 0 :: be32 ignored
  | some v => 1 :: be32 v

/-- The payload of the STAGE frame that carries an edit; `ignored` fills the bytes the part ignores. -/
def Edit.payload (ignored : BitVec 32) : Edit → List Byte
  | .plane e => e.payload
  | .colours bank first cs => [byteOf bank.val, byteOf first, byteOf cs.length, 0] ++ coloursBytes cs
  | .order p form => byteOf p.val :: orderBytes (ignored.setWidth 8) form
  | .signature p expected limit action =>
    byteOf p.val :: expectedBytes ignored expected ++ [byteOf limit, action.code]
  | .guard p set => [byteOf p.val, flagByte set]
  | .scan e => e.payload

end Sys2Proof.Machine
end

