-- ==== Sys2Proof/Machine/Ops.lean ====
section
/-! DEFINITION. The named operations that the commands share: access to the tables, the Palette Store, the counts taken
from the pool and the queue, posting a notice, the lease, the arrival of a completion, the beginning of a lapse. -/

namespace Sys2Proof.Machine

/-! ### Access to the tables -/

/-- Port p's CPI. -/
def State.cpi (s : State) (p : Port) : Cpi := s.cpis[p]

/-- Port p's CPI replaced. -/
def State.setCpi (s : State) (p : Port) (c : Cpi) : State := { s with cpis := s.cpis.set p c }

/-- Port p's Notice Queue. -/
def State.noticeQueue (s : State) (p : Port) : NoticeQueue := s.notices[p]

/-- Port p's Notice Queue replaced. -/
def State.setNotices (s : State) (p : Port) (q : NoticeQueue) : State := { s with notices := s.notices.set p q }

/-- Port p's Session Table entry. -/
def State.session (s : State) (p : Port) : Session := s.sessions[p]

/-- Port p's Session Table entry replaced. -/
def State.setSession (s : State) (p : Port) (x : Session) : State := { s with sessions := s.sessions.set p x }

/-- Port p's part of the Staging Store. -/
def State.staged (s : State) (p : Port) : Staging := s.staging[p]

/-- Port p's part of the Staging Store replaced. -/
def State.setStaged (s : State) (p : Port) (x : Staging) : State := { s with staging := s.staging.set p x }

/-- Port p's Batch Outcome History. -/
def State.history (s : State) (p : Port) : List HistoryEntry := s.histories[p]

/-- Port p's Batch Outcome History replaced. -/
def State.setHistory (s : State) (p : Port) (h : List HistoryEntry) : State :=
  { s with histories := s.histories.set p h }

/-- Port p's next batch number replaced. -/
def State.setNextBatch (s : State) (p : Port) (n : Byte) : State := { s with nextBatch := s.nextBatch.set p n }

/-- Plane p's claim entry replaced. -/
def State.setPlaneClaim (s : State) (p : Plane) (c : Claim) : State :=
  { s with planeClaims := s.planeClaims.set p c }

/-- Bank b's claim entry replaced. -/
def State.setBankClaim (s : State) (b : Bank) (c : Claim) : State := { s with bankClaims := s.bankClaims.set b c }

/-- Port p's waiter replaced. -/
def State.setWaiter (s : State) (p : Port) (w : Option Waiter) : State :=
  { s with timing := { s.timing with waiters := s.timing.waiters.set p w } }

/-- The owner a claim entry names, Held or Revoking alike (R87). -/
def Claim.owner : Claim → Option Port
  | .free => none
  | .held p => some p
  | .revoking p => some p

/-- The claim entry of a plane or a bank. -/
def State.claimOf (s : State) : Resource → Claim
  | .plane p => s.planeClaims[p]
  | .bank b => s.bankClaims[b]

/-- The claim entry of a plane or a bank replaced. -/
def State.setClaim (s : State) (r : Resource) (c : Claim) : State :=
  match r with
  | .plane p => s.setPlaneClaim p c
  | .bank b => s.setBankClaim b c

/-- The plane's owner (R1, R118). -/
def State.planeOwner (s : State) (p : Plane) : Option Port := s.planeClaims[p].owner

/-- The bank's holder (R31, R118). -/
def State.bankOwner (s : State) (b : Bank) : Option Port := s.bankClaims[b].owner

/-- The Session Table shows the port Attached. -/
def State.isAttached (s : State) (p : Port) : Bool := (s.session p).state == .attached

/-- The port that SUPSEL[1:0] names; none when it is 3 (R102). -/
def State.strapped (s : State) : Option Port := if h : s.supsel.toNat < 3 then some ⟨s.supsel.toNat, h⟩ else none

/-- The supervisor: the strapped port while its session is Attached (R102). -/
def State.supervisor (s : State) : Option Port :=
  match s.strapped with
  | some p => if s.isAttached p then some p else none
  | none => none

/-- The role of a session of the port (R102). -/
def State.roleOf (s : State) (p : Port) : Role := if s.strapped = some p then .supervisor else .member

/-- The planes 0..15 in increasing number. -/
def allPlanes : List Plane := [0, 1, 2, 3, 4, 5, 6, 7, 8, 9, 10, 11, 12, 13, 14, 15]

/-- The banks 0..3 in increasing number. -/
def allBanks : List Bank := [0, 1, 2, 3]

/-- The ports 0..2 in increasing number. -/
def allPorts : List Port := [0, 1, 2]

/-! ### The Live State -/

/-- The plane has a guard record in the list (R136). -/
def Live.isGuarded (l : Live) (p : Plane) : Bool := l.guards[p].isSome

/-- The plane is held (R1, R136). -/
def Live.isHeld (l : Live) (p : Plane) : Bool := (l.guards[p].map (·.held)).getD false

/-- The number of guarded planes (R22). -/
def Live.guardCount (l : Live) : Nat := allPlanes.countP l.isGuarded

/-- Plane p's record replaced. -/
def Live.setPlane (l : Live) (p : Plane) (r : PlaneRecord) : Live := { l with planes := l.planes.set p r }

/-- Plane p's guard record replaced. -/
def Live.setGuard (l : Live) (p : Plane) (r : Option GuardRecord) : Live := { l with guards := l.guards.set p r }

/-- A guard record disarmed at the loss of its plane's owner (R141). -/
def GuardRecord.disarm (r : GuardRecord) : GuardRecord := { r with expected := none, held := false, changed := true }

/-- The plane's enabled field set to no, every other field kept, and its guard, if any, disarmed (R112 steps 1 and 2,
R132 steps 1 and 2). -/
def Live.takeDown (l : Live) (p : Plane) : Live :=
  { l with
    planes := l.planes.set p { l.planes[p] with enabled := false }
    guards := l.guards.set p (l.guards[p].map GuardRecord.disarm) }

/-- The budget of a window, or of a SEAL's check, under a Scan Record (R69, R78). -/
def ScanRecord.budget (r : ScanRecord) : Nat := 64 * (r.vblank - 1)

/-! ### The Palette Store: a list of cells in canonical form (log entry 20) -/

/-- The cell of a bank's entry. -/
def paletteCell (bank : Bank) (index : Nat) : Nat := bank.val * 256 + index

/-- What an unlisted cell reads as: (i, i, i) for entry i (R23). -/
def paletteReset (cell : Nat) : Colour := .grey (BitVec.ofNat 8 cell)

/-- The colour of a cell. -/
def paletteRead : List (Nat × Colour) → Nat → Colour
  | [], cell => paletteReset cell
  | (k, c) :: rest, cell => if k = cell then c else paletteRead rest cell

/-- The store with one cell written. -/
def paletteWrite : List (Nat × Colour) → Nat → Colour → List (Nat × Colour)
  | [], cell, c => if c = paletteReset cell then [] else [(cell, c)]
  | (k, d) :: rest, cell, c =>
    if cell < k then
      if c = paletteReset cell then (k, d) :: rest else (cell, c) :: (k, d) :: rest
    else if cell = k then
      if c = paletteReset cell then rest else (cell, c) :: rest
    else (k, d) :: paletteWrite rest cell c

/-- The store with the colours written from a cell on, in order (R28). -/
def paletteWrites : List (Nat × Colour) → Nat → List Colour → List (Nat × Colour)
  | store, _, [] => store
  | store, cell, c :: rest => paletteWrites (paletteWrite store cell c) (cell + 1) rest

/-- The canonical form, for cells from `low` up to 1023: cells rising, none equal to what an unlisted cell reads as. -/
def paletteWfFrom : Nat → List (Nat × Colour) → Bool
  | _, [] => true
  | low, (k, c) :: rest => low ≤ k && k < 1024 && c != paletteReset k && paletteWfFrom (k + 1) rest

/-- The canonical form of the Palette Store. -/
def Memory.wf (store : List (Nat × Colour)) : Bool := paletteWfFrom 0 store

/-- The colour of entry `index` of a bank. -/
def bankEntry (store : List (Nat × Colour)) (bank : Bank) (index : Nat) : Colour :=
  paletteRead store (paletteCell bank index)

/-! ### Lists -/

/-- The list with g applied to the first element for which f holds. -/
def modifyFirst {α : Type} (f : α → Bool) (g : α → α) : List α → List α
  | [] => []
  | a :: rest => if f a then g a :: rest else a :: modifyFirst f g rest

/-! ### Edits, the pool and the queue -/

/-- The cost of an edit in budget units (Table 4.1). -/
def Edit.cost : Edit → Nat
  | .plane _ => 2
  | .colours _ _ cs => cs.length
  | .order _ _ => 2
  | .signature _ _ _ _ => 1
  | .guard _ _ => 2
  | .scan _ => 8

/-- The staged cost: the sum of the edits' costs (R54). -/
def editsCost : List Edit → Nat
  | [] => 0
  | e :: rest => e.cost + editsCost rest

/-- The plane or bank an edit touches (R87). -/
def Edit.touched : Edit → Option Resource
  | .plane e => some (.plane e.plane)
  | .colours bank _ _ => some (.bank bank)
  | .order p _ => some (.plane p)
  | .signature p _ _ _ => some (.plane p)
  | .guard _ _ => none
  | .scan _ => none

/-- The edit names the bank: it writes it, or sets a palette field to it (R127). -/
def Edit.namesBank (b : Bank) : Edit → Bool
  | .plane e => e.palette == some (some b)
  | .colours bank _ _ => bank == b
  | .order _ _ => false
  | .signature _ _ _ _ => false
  | .guard _ _ => false
  | .scan _ => false

/-- Records that batches of a queue hold for port p. -/
def queueRecords (p : Port) : List Batch → Nat
  | [] => 0
  | b :: rest => (if b.port = p then b.edits.length else 0) + queueRecords p rest

/-- The port's records in use: its Staged List and its batches (R52). -/
def State.recordsInUse (s : State) (p : Port) : Nat := (s.staged p).list.length + queueRecords p s.queue

/-- Records of the pool in use (R52). -/
def State.poolUsed (s : State) : Nat := s.recordsInUse 0 + s.recordsInUse 1 + s.recordsInUse 2

/-- Free records of the pool (R52). -/
def State.poolFree (s : State) : Nat := Config.poolSize - s.poolUsed

/-- The port's batches in the Commit Queue, Queued or Applying (R71, R171). -/
def State.portBatches (s : State) (p : Port) : Nat := s.queue.countP fun b => b.port == p

/-- The number of a session, or of a batch, that follows (R73, R105): from 255 to 1. -/
def nextNumber (n : Byte) : Byte := if n = 255 then 1 else n + 1

/-- A history with an entry added, the oldest removed to make room (R77). -/
def pushHistory (h : List HistoryEntry) (e : HistoryEntry) : List HistoryEntry :=
  (if h.length < Config.historySize then h else h.drop 1) ++ [e]

/-- An entry written to port p's history (R77). -/
def State.record (s : State) (p : Port) (e : HistoryEntry) : State := s.setHistory p (pushHistory (s.history p) e)

/-! ### Notices -/

/-- A record with no subject, batch, resource and detail. -/
def Notice.plain (kind : NoticeKind) (field : Byte) : Notice :=
  { kind, field, subject := none, batch := none, resource := none, d0 := 0, d1 := 0, d2 := 0 }

/-- A queue that takes a record: stored while there is room, else counted as dropped up to 255 (R152). -/
def NoticeQueue.take (q : NoticeQueue) (n : Notice) : NoticeQueue :=
  if q.records.length < Config.noticeSize then { q with records := q.records ++ [n] }
  else { q with dropped := if q.dropped < 255 then q.dropped + 1 else q.dropped }

/-- The Notice Queue of port p takes a post (Table 9.3). -/
def State.post (s : State) (p : Port) (n : Notice) : State :=
  if (s.session p).state = .detached ∧ n.kind ≠ .sessionEnded then s
  else s.setNotices p ((s.noticeQueue p).take n)

/-- A post to a port if its session is Attached. -/
def State.postAttached (s : State) (n : Notice) (p : Port) : State := if s.isAttached p then s.post p n else s

/-- A post to the supervisor, if there is one (R102). -/
def State.postSupervisor (s : State) (n : Notice) : State :=
  match s.supervisor with
  | some p => s.post p n
  | none => s

/-- The notice attention signal (R158). -/
def NoticeQueue.attention (q : NoticeQueue) : Bool := !q.records.isEmpty || 0 < q.dropped

/-! ### The response slot, the lease and the attention line -/

/-- The lease of port p restarted, while it is Attached (R106). -/
def State.restartLease (s : State) (p : Port) : State :=
  if s.isAttached p then s.setSession p { s.session p with remaining := (s.session p).interval } else s

/-- The CPI whose taken frame is answered at once: the response stands in the slot, LOST when it drops an unread one,
and pending-given is clear (R163, R164). -/
def Cpi.answered (c : Cpi) (k : Completion) (code : Byte) (payload : List Byte) : Cpi :=
  { c with
    state := .holding, buffer := [], long := false, pendingGiven := false, bus := .free
    slot := some { completion := k, lost := c.slot.isSome, code, payload } }

/-- The CPI whose taken frame goes into flight: an unread response is dropped and the lost mark says so (R163, R164). -/
def Cpi.launched (c : Cpi) (code : Byte) : Cpi :=
  { c with
    state := .executing, buffer := [], long := false, pendingGiven := false, bus := .free
    slot := none, lostMark := c.slot.isSome, inFlight := some code }

/-- The CPI at which the completion of its command in flight arrives; a stretched read is answered with it (R165,
R168). -/
def Cpi.completed (c : Cpi) (k : Completion) (payload : List Byte) : Cpi :=
  { c with
    state := .holding
    slot := some { completion := k, lost := c.lostMark, code := c.inFlight.getD 0, payload }
    inFlight := none, lostMark := false
    bus := if c.bus = .stretching then .readHeld else c.bus }

/-- The completion of port p's command in flight reaches its CPI, and the lease runs again (R165, R106). A completion
arrives for an Executing port only. -/
def State.complete (s : State) (p : Port) (k : Completion) (payload : List Byte) : State :=
  if (s.cpi p).state = .executing then (s.setCpi p ((s.cpi p).completed k payload)).restartLease p else s

/-- A response given PENDING waits unread in the port's slot (R170): also while a new write is received, until the slot is
emptied or replaced (log entry 32). -/
def Cpi.attention (c : Cpi) : Bool := c.pendingGiven && c.slot.isSome

/-- ATTN of port p is asserted (R170). -/
def State.attn (s : State) (p : Port) : Bool := (s.noticeQueue p).attention || (s.cpi p).attention

/-- The part holds SCL of port p low (R159, R168). -/
def State.sclHeld (s : State) (p : Port) : Bool := (s.cpi p).bus == .stretching

/-! ### The beginning of a lapse (R110) -/

/-- A batch of port p waits in the queue, Queued. -/
def Batch.purgedBy (p : Port) (b : Batch) : Bool := b.port == p && b.state == .queued

/-- The port's SEAL waits for this batch. -/
def Batch.waitsFor (p : Port) (b : Batch) : Bool := b.port == p && b.wait

/-- History entries for purged batches, in the order of the queue (R98). -/
def pushPurged (field : Byte) : List HistoryEntry → List Batch → List HistoryEntry
  | h, [] => h
  | h, b :: rest => pushPurged field (pushHistory h { number := b.number, outcome := .purged, field }) rest

/-- Every Queued batch of port p leaves the queue as purged (R98), and the wait flag of its other batch, an Applying
one, is cleared. -/
def State.purge (s : State) (p : Port) : State :=
  { s with
    queue := (s.queue.filter fun b => !b.purgedBy p).map fun b => if b.port = p then { b with wait := false } else b
    histories := s.histories.set p (pushPurged s.timing.field (s.history p) (s.queue.filter (Batch.purgedBy p))) }

/-- The completion of a WAIT_FIELD that a lapse ends: SESSION_ENDING (R111), or OK when its last Field Start was taken
before the lapse (R50, log entry 11). -/
def State.endWaitField (s : State) (p : Port) (w : Waiter) : State :=
  match w.due with
  | some field => (s.setWaiter p none).complete p .ok [field]
  | none => (s.setWaiter p none).complete p .sessionEnding []

/-- The completion of a waiting SEAL that a lapse ends: SESSION_ENDING (R111), or TIMEOUT when its last countdown was
taken before the lapse (R95, log entry 11). -/
def State.endSeal (s : State) (p : Port) (b : Batch) : State :=
  match b.timedOut with
  | some field => s.complete p .timeout (b.acceptance ++ [field])
  | none => s.complete p .sessionEnding b.acceptance

/-- The port's command in flight ends at the beginning of a lapse (R110 step 4, R111): a waiting WAIT_FIELD, or the
waiting SEAL of the batch given. -/
def State.endInFlight (s : State) (p : Port) (waiting : Option Batch) : State :=
  match s.timing.waiters[p], waiting with
  | some w, _ => s.endWaitField p w
  | none, some b => s.endSeal p b
  | none, none => s

/-- A lapse of port p begins with the given cause: the six parts of R110 as one event. -/
def State.beginLapse (s : State) (p : Port) (cause : LapseCause) : State :=
  let purged := s.queue.countP (Batch.purgedBy p)
  let waiting := s.queue.find? (Batch.waitsFor p)
  let x := s.session p
  let s := s.setSession p { x with state := .lapsing, cause, purged, inLapseSet := true, remaining := 0 }
  let s := s.setStaged p .empty
  let s := s.purge p
  s.endInFlight p waiting

end Sys2Proof.Machine
end

