-- ==== Sys2Proof/Machine/Notices.lean ====
section
/-! DEFINITION. Collecting notices (chapter 9). -/

namespace Sys2Proof.Machine

/-- The bytes of notice records, oldest first. -/
def noticesBytes : List Notice → List Byte
  | [] => []
  | n :: rest => n.bytes ++ noticesBytes rest

/-- What READ_NOTICES delivers: the number of records, the dropped count, the records (R155). -/
def NoticeQueue.delivery (q : NoticeQueue) : List Byte :=
  byteOf (q.records.take Config.noticesPerRead).length :: byteOf q.dropped
    :: noticesBytes (q.records.take Config.noticesPerRead)

/-- The queue after READ_NOTICES (R155). -/
def NoticeQueue.delivered (q : NoticeQueue) : NoticeQueue :=
  { records := q.records.drop Config.noticesPerRead, dropped := 0 }

/-- READ_NOTICES (R155). -/
def readNoticesAct (p : Port) (payload : List Byte) (s : State) : Reply × State :=
  match payload with
  | [] => (.done .ok (s.noticeQueue p).delivery, s.setNotices p (s.noticeQueue p).delivered)
  | _ => (.done .badArg [], s)

end Sys2Proof.Machine
end

