-- ==== Sys2Proof/Machine/Queries.lean ====
section
/-! DEFINITION. STATUS and the queries: they read the live state and change nothing behind the port. -/

namespace Sys2Proof.Machine

/-- STATUS's answer (R171, Table 11.3). -/
def statusBytes (p : Port) (s : State) : List Byte :=
  let x := s.session p
  [(s.cpi p).prior.code, x.state.code, x.number, x.role.code, x.interval, x.remaining,
    byteOf (s.staged p).list.length] ++ be16 (s.staged p).check.toNat
    ++ [byteOf (s.recordsInUse p), byteOf (s.portBatches p), byteOf s.poolFree,
      byteOf (Config.queueSize - s.queue.length), s.timing.field, s.timing.refState.code]

/-- STATUS (R171). -/
def statusAct (p : Port) (payload : List Byte) (s : State) : Reply × State :=
  match payload with
  | [] => (.done .ok (statusBytes p s), s)
  | _ => (.done .badArg [], s)

/-- QUERY_PLANE's answer (R21, Table 11.3). -/
def planeBytes (q : Plane) (s : State) : List Byte :=
  let r := s.live.planes[q]
  [byteOf q.val, portByte (s.planeOwner q), flagByte r.enabled] ++ r.rect.bytes ++ [r.source.code]
    ++ Colour.bytes r.fill ++ [paletteByte r.palette, r.mode.code] ++ r.mode.parameterBytes
    ++ [flagByte (s.live.isGuarded q), flagByte (s.live.isHeld q), byteOf (s.live.order.idxOf q)]

/-- QUERY_PLANE (R21). -/
def queryPlaneAct (payload : List Byte) (s : State) : Reply × State :=
  match payload with
  | [b] =>
    match planeOf b with
    | some q => (.done .ok (planeBytes q s), s)
    | none => (.done .badArg [], s)
  | _ => (.done .badArg [], s)

/-- QUERY_ORDER (R22). -/
def queryOrderAct (payload : List Byte) (s : State) : Reply × State :=
  match payload with
  | [] => (.done .ok (s.live.order.map (fun q => byteOf q.val) ++ [byteOf s.live.guardCount]), s)
  | _ => (.done .badArg [], s)

/-- The bytes of n entries of a bank from an index on. -/
def entriesBytes (store : List (Nat × Colour)) (bank : Bank) (index : Nat) : Nat → List Byte
  | 0 => []
  | n + 1 => Colour.bytes (bankEntry store bank index) ++ entriesBytes store bank (index + 1) n

/-- QUERY_COLOURS (R31). -/
def queryColoursAct (payload : List Byte) (s : State) : Reply × State :=
  match payload with
  | [b, first, count] =>
    match bankOf b with
    | none => (.done .badArg [], s)
    | some bank =>
      if count.toNat = 0 ∨ 16 < count.toNat ∨ 256 < first.toNat + count.toNat then (.done .badArg [], s)
      else
        (.done .ok ([b, first, count, portByte (s.bankOwner bank)]
          ++ entriesBytes s.live.palette bank first.toNat count.toNat), s)
  | _ => (.done .badArg [], s)

/-- QUERY_SCAN (R51): a pending block is always sent (chapter 11.2). -/
def queryScanAct (payload : List Byte) (s : State) : Reply × State :=
  match payload with
  | [] =>
    (.done .ok (s.live.scan.bytes ++ [flagByte s.live.pendingMark] ++ s.live.pendingScan.bytes
      ++ [s.timing.refState.code, flagByte s.timing.pendingRef, s.timing.field] ++ be16 s.timing.lastBlanking), s)
  | _ => (.done .badArg [], s)

/-- One entry of QUERY_GUARD's answer, 13 bytes (chapter 11.2). -/
def guardBytes (s : State) (q : Plane) (r : GuardRecord) : List Byte :=
  [byteOf q.val, portByte (s.planeOwner q), guardFlags s.live.planes[q].enabled r] ++ be32 (r.expected.getD 0)
    ++ [byteOf r.limit, byteOf r.runCount] ++ be32 (r.lastSignature.getD 0)

/-- The entries of the guarded planes of a list, in its order. -/
def guardsBytes (s : State) : List Plane → List Byte
  | [] => []
  | q :: rest =>
    match s.live.guards[q] with
    | some r => guardBytes s q r ++ guardsBytes s rest
    | none => guardsBytes s rest

/-- QUERY_GUARD (R149): the records in the order of the Stacking List. -/
def queryGuardAct (payload : List Byte) (s : State) : Reply × State :=
  match payload with
  | [] => (.done .ok (byteOf s.live.guardCount :: guardsBytes s s.live.order), s)
  | _ => (.done .badArg [], s)

end Sys2Proof.Machine
end

