-- ==== Sys2Proof/Machine/Registry.lean ====
section
/-! DEFINITION. The Registry: the session checks, sessions, leases and lapses (chapter 6), claims and revocations
(chapter 7). -/

namespace Sys2Proof.Machine

/-! ### Session checks (R103) -/

/-- Table 6.2: none when the command passes. -/
def sessionRefusal (c : Command) (x : Session) (session : Byte) : Option Completion :=
  match c with
  | .attach => if x.state = .lapsing then some .lapsing else none
  | .status | .readNotices => none
  | .detach | .evict | .claim | .release | .revoke | .stagePlane | .stageColours | .stageOrder | .stageSignature
  | .stageGuard | .stageScan | .discard | .seal | .withdraw | .waitField | .queryPlane | .queryOrder
  | .queryColours | .queryScan | .queryGuard =>
    match x.state with
    | .detached => some .notAttached
    | .lapsing => some .lapsing
    | .attached => if session = x.number then none else some .staleSession

/-! ### Attaching, detaching, eviction -/

/-- The session that ATTACH begins (R104): a new number, the role of the strap, the lease, which starts at once. -/
def Session.begun (x : Session) (role : Role) (lease : Byte) : Session :=
  { x with state := .attached, number := nextNumber x.number, role, interval := lease, remaining := lease }

/-- ATTACH as the Registry judges it (R104). -/
def attachAct (p : Port) (session : Byte) (payload : List Byte) (s : State) : Reply × State :=
  let x := s.session p
  if x.state = .attached then (.done .attached [x.number, x.interval], s)
  else
    match payload with
    | [lease] =>
      if session ≠ 0 then (.done .badArg [], s)
      else if s.roleOf p = .member ∧ lease = 0 then (.done .badArg [], s)
      else
        let x := x.begun (s.roleOf p) lease
        (.done .ok [x.number, x.role.code, x.interval],
          (((s.setSession p x).setStaged p .empty).setNextBatch p 1).setHistory p [])
    | _ => (.done .badArg [], s)

/-- The port has a claim, Held or Revoking (R108). -/
def State.holdsClaim (s : State) (p : Port) : Bool :=
  (allPlanes.any fun q => s.planeOwner q == some p) || allBanks.any fun b => s.bankOwner b == some p

/-- DETACH (R108). The ended session's lease interval is kept (log entry 30). -/
def detachAct (p : Port) (payload : List Byte) (s : State) : Reply × State :=
  match payload with
  | [] =>
    let x := s.session p
    if s.holdsClaim p || 0 < s.portBatches p then
      (.done .ok [x.number, SessionState.lapsing.code], s.beginLapse p .detached)
    else
      (.done .ok [x.number, SessionState.detached.code],
        (s.setSession p { x with state := .detached, remaining := 0 }).setStaged p .empty)
  | _ => (.done .badArg [], s)

/-- EVICT (Table 6.3). -/
def evictAct (p : Port) (payload : List Byte) (s : State) : Reply × State :=
  match payload with
  | [b] =>
    match portOf b with
    | none => (.done .badArg [], s)
    | some q =>
      if q = p then (.done .badArg [], s)
      else
        let x := s.session q
        match x.state with
        | .detached => (.done .notAttached [], s)
        | .lapsing => (.done .alreadyLapsing [b, x.number, x.cause.code], s)
        | .attached => (.done .ok [b, x.number], s.beginLapse q .evicted)
  | _ => (.done .badArg [], s)

/-! ### Claims -/

/-- The guarded byte of CLAIM's answer: a bank is never guarded (R120, log entry 16). -/
def guardedByte (s : State) : Resource → Byte
  | .plane p => flagByte (s.live.isGuarded p)
  | .bank _ => 0

/-- CLAIM of a named plane or bank (R120); kind and number are echoed. -/
def claimNamed (p : Port) (r : Resource) (kind number : Byte) (s : State) : Reply × State :=
  match s.claimOf r with
  | .free => (.done .ok [kind, number, guardedByte s r], s.setClaim r (.held p))
  | .held q => (.done .owned [portByte (some q), 1], s)
  | .revoking q => (.done .owned [portByte (some q), 2], s)

/-- The plane that CLAIM ANY-PLANE takes: the lowest-numbered one that is Free and not guarded (R121). -/
def State.anyPlane (s : State) : Option Plane :=
  allPlanes.find? fun q => s.planeClaims[q] == .free && !s.live.isGuarded q

/-- CLAIM ANY-PLANE (R121). -/
def claimAny (p : Port) (s : State) : Reply × State :=
  match s.anyPlane with
  | some q => (.done .ok [0, byteOf q.val, 0], s.setPlaneClaim q (.held p))
  | none => (.done .noneFree [], s)

/-- CLAIM (R119): PLANE and BANK by number, ANY-PLANE whatever the number. -/
def claimAct (p : Port) (payload : List Byte) (s : State) : Reply × State :=
  match payload with
  | [kind, number] =>
    if kind = 2 then claimAny p s
    else
      match resourceOf kind number with
      | some r => claimNamed p r kind number s
      | none => (.done .badArg [], s)
  | _ => (.done .badArg [], s)

/-- A plane or bank is touched, or the bank named, by an edit of the list (R126, R127). -/
def editsUse (r : Resource) (edits : List Edit) : Bool :=
  match r with
  | .plane p => edits.any fun e => e.touched == some (.plane p)
  | .bank b => edits.any (Edit.namesBank b)

/-- The first cause for which a resource is in use by its holder (R126, R127): 1 ENABLED, 2 STAGED, 3 QUEUED, 4 NAMED. A
plane that stands enabled in the live table is ENABLED also while the batch that disables it is Applying (log entry 31). -/
def State.inUseCause (s : State) (p : Port) (r : Resource) : Option Byte :=
  let live : Option Byte :=
    match r with
    | .plane q => if s.live.planes[q].enabled then some 1 else none
    | .bank b =>
      if allPlanes.any fun q => s.planeOwner q == some p && s.live.planes[q].palette == some b then some 4 else none
  live.or <|
    if editsUse r (s.staged p).list then some 2
    else if s.queue.any fun b => b.port == p && editsUse r b.edits then some 3
    else none

/-- A guard disarmed in the live Guard List when its plane is released (R128, R141). -/
def Live.disarm (l : Live) (p : Plane) : Live :=
  { l with guards := l.guards.set p (l.guards[p].map GuardRecord.disarm) }

/-- The entry made Free, and a plane's guard disarmed (R128). -/
def State.freed (s : State) (r : Resource) : State :=
  match r with
  | .plane q => { s.setPlaneClaim q .free with live := s.live.disarm q }
  | .bank b => s.setBankClaim b .free

/-- RELEASE (Table 7.3). -/
def releaseAct (p : Port) (payload : List Byte) (s : State) : Reply × State :=
  match payload with
  | [kind, number] =>
    match resourceOf kind number with
    | none => (.done .badArg [], s)
    | some r =>
      match s.claimOf r with
      | .free => (.done .notOwner [portByte none], s)
      | .revoking q => if q = p then (.done .revoking [], s) else (.done .notOwner [portByte (some q)], s)
      | .held q =>
        if q = p then
          match s.inUseCause p r with
          | some cause => (.done .inUse [cause], s)
          | none => (.done .ok [kind, number], s.freed r)
        else (.done .notOwner [portByte (some q)], s)
  | _ => (.done .badArg [], s)

/-- REVOKE (Table 7.4). -/
def revokeAct (payload : List Byte) (s : State) : Reply × State :=
  match payload with
  | [kind, number] =>
    match resourceOf kind number with
    | none => (.done .badArg [], s)
    | some r =>
      match s.claimOf r with
      | .free => (.done .notHeld [], s)
      | .held q => (.done .ok [portByte (some q), 0], s.setClaim r (.revoking q))
      | .revoking q => (.done .ok [portByte (some q), 1], s)
  | _ => (.done .badArg [], s)

/-! ### Lease ticks and expiry -/

/-- The lease of the port is lowered by a tick: Attached, with a lease, and not Executing (R106, R107). -/
def State.leaseRuns (s : State) (p : Port) : Bool :=
  s.isAttached p && (s.session p).interval != 0 && (s.cpi p).state != .executing

/-- The next tick is the expiry of the port's lease: it lowers the lease remaining to 0 (R106). -/
def State.expiryDue (s : State) (p : Port) : Bool := s.leaseRuns p && (s.session p).remaining ≤ 1

/-- The tick at one port (R106): the lease remaining is lowered by one, and a tick that lowers it to 0 begins a lapse with
cause EXPIRED. -/
def State.tickLease (s : State) (p : Port) : State :=
  if s.expiryDue p then s.beginLapse p .expired
  else if s.leaseRuns p then s.setSession p { s.session p with remaining := (s.session p).remaining - 1 }
  else s

/-- LEASE_TICK (R106): the tick is common to the three ports. -/
def execLeaseTick (s : State) : Host.Outcome State Fault Refusal :=
  .next (if s.nreset then ((s.tickLease 0).tickLease 1).tickLease 2 else s)

/-- LEASE_EXPIRY (R106): the tick that lowers the port's lease remaining to 0, at this port alone; a lapse begins with cause
EXPIRED. Taken while the lease has one tick left, so that it changes nothing after the LEASE_TICK that was the expiry (log
entries 8 and 11). -/
def execLeaseExpiry (p : Port) (s : State) : Host.Outcome State Fault Refusal :=
  .next (if s.nreset && s.expiryDue p then s.beginLapse p .expired else s)

/-! ### Stage (a) of a window: lapses (R112, R113) -/

/-- The Live State with every plane of the port, in the list given, taken down (R112 steps 1 and 2). -/
def takeDownPlanes (s : State) (p : Port) : Live → List Plane → Live
  | l, [] => l
  | l, q :: rest => takeDownPlanes s p (if s.planeOwner q = some p then l.takeDown q else l) rest

/-- A claim entry after the lapse of a port: its own claims are Free (R112 step 3). -/
def Claim.without (p : Port) (c : Claim) : Claim := if c.owner = some p then .free else c

/-- SESSION_ENDED (R113 step 6). -/
def sessionEnded (field : Byte) (p : Port) (x : Session) : Notice :=
  { Notice.plain .sessionEnded field with subject := some p, d0 := x.cause.code, d1 := byteOf x.purged }

/-- PORT_LAPSED (R113 step 7). -/
def portLapsed (field : Byte) (p : Port) (x : Session) : Notice :=
  { Notice.plain .portLapsed field with subject := some p, d0 := x.cause.code }

/-- Steps 1 to 3 of a lapse's completion: planes, guards and claims (R112). -/
def State.lapseClaims (s : State) (p : Port) : State :=
  { s with
    live := takeDownPlanes s p s.live allPlanes
    planeClaims := Vector.ofFn fun q => s.planeClaims[q].without p
    bankClaims := Vector.ofFn fun b => s.bankClaims[b].without p }

/-- Steps 4 to 7: the session ends, the Notice Queue holds SESSION_ENDED alone, the supervisor is told (R113, R154). The
ended session's lease interval is kept with its number and role (log entry 30). -/
def State.lapseSession (s : State) (p : Port) (field : Byte) : State :=
  let x := s.session p
  let s := s.setSession p { x with state := .detached, inLapseSet := false }
  let s := (s.setNotices p .empty).post p (sessionEnded field p x)
  if s.supervisor = some p then s else s.postSupervisor (portLapsed field p x)

/-- The lapse of one port completed, if it stands in the Lapse Set (R112). -/
def State.completeLapse (s : State) (field : Byte) (p : Port) : State :=
  if (s.session p).inLapseSet then (s.lapseClaims p).lapseSession p field else s

/-- STAGE_A_LAPSES (R112): the ports of the Lapse Set, in increasing number. Taken at its place in the window (R78, log
entry 8). -/
def execStageALapses (s : State) : Host.Outcome State Fault Refusal :=
  .next <|
    match s.window with
    | some w =>
      if s.nreset && w.stage == .lapses then
        let s := ((s.completeLapse w.field 0).completeLapse w.field 1).completeLapse w.field 2
        { s with window := some { w with stage := .revocations } }
      else s
    | none => s

/-! ### Stage (b) of a window: revocations (R132 to R134) -/

/-- CLAIM_REVOKED (R134). -/
def claimRevoked (field : Byte) (r : Resource) : Notice :=
  { Notice.plain .claimRevoked field with
    resource := some r
    d0 := match r with | .plane _ => 0 | .bank _ => 1 }

/-- A plane's revocation completed, if its entry is Revoking (R132). -/
def State.revokePlane (field : Byte) (s : State) (q : Plane) : State :=
  match s.planeClaims[q] with
  | .revoking p => ({ s.setPlaneClaim q .free with live := s.live.takeDown q }).post p (claimRevoked field (.plane q))
  | .held _ => s
  | .free => s

/-- The plane's palette name replaced by none when the plane belongs to the bank's former owner and names the bank
(R133 step 1). -/
def unnamed (s : State) (p : Port) (b : Bank) (q : Plane) : PlaneRecord :=
  let r := s.live.planes[q]
  if s.planeOwner q = some p ∧ r.palette = some b then { r with palette := none } else r

/-- A bank's revocation completed, if its entry is Revoking (R133). -/
def State.revokeBank (field : Byte) (s : State) (b : Bank) : State :=
  match s.bankClaims[b] with
  | .revoking p =>
    ({ s.setBankClaim b .free with
        live := { s.live with planes := Vector.ofFn (unnamed s p b) } }).post p (claimRevoked field (.bank b))
  | .held _ => s
  | .free => s

/-- STAGE_B_REVOCATIONS (R132, R133): planes, then banks, in increasing number. Taken at its place in the window (R78,
log entry 8). -/
def execStageBRevocations (s : State) : Host.Outcome State Fault Refusal :=
  .next <|
    match s.window with
    | some w =>
      if s.nreset && w.stage == .revocations then
        let s := allBanks.foldl (State.revokeBank w.field) (allPlanes.foldl (State.revokePlane w.field) s)
        { s with window := some { w with stage := .scan } }
      else s
    | none => s

end Sys2Proof.Machine
end

