-- ==== Sys2Proof/Machine/Store.lean ====
section
/-! DEFINITION. The Staging Store: taking STAGE frames, DISCARD and SEAL (chapter 4). -/

namespace Sys2Proof.Machine

/-! ### STAGE frames -/

/-- What a STAGE answer carries: staged count, staged cost, running check (Table 11.3). -/
def Staging.report (x : Staging) : List Byte :=
  byteOf x.list.length :: be16 (editsCost x.list) ++ be16 x.check.toNat

/-- A STAGE frame refused: nothing changes, and the answer carries the counts as they stand (R61). -/
def stageRefused (p : Port) (k : Completion) (s : State) : Reply × State := (.done k (s.staged p).report, s)

/-- The port holds the resource, Held and not Revoking (Table 4.1). -/
def State.holds (s : State) (p : Port) (r : Resource) : Bool := s.claimOf r == .held p

/-- The Staged List with an accepted edit, and the check with its payload folded in (R63, R64). -/
def Staging.add (x : Staging) (e : Edit) (payload : List Byte) : Staging :=
  { list := x.list ++ [e], check := foldChecks x.check payload }

/-- Checks 3 to 5 of Table 4.2, and the acceptance of R63: the edit is absent when a field range failed. -/
def stageEdit (p : Port) (payload : List Byte) (edit : Option Edit) (s : State) : Reply × State :=
  match edit with
  | none => stageRefused p .badArg s
  | some e =>
    if s.poolFree = 0 then stageRefused p .poolFull s
    else if Config.portCap ≤ s.recordsInUse p then stageRefused p .portCap s
    else
      let x := (s.staged p).add e payload
      (.done .ok x.report, s.setStaged p x)

/-- STAGE_PLANE (R56, R61, R174). -/
def stagePlaneAct (p : Port) (payload : List Byte) (s : State) : Reply × State :=
  match payload with
  | b :: mask :: parts =>
    match planeOf b with
    | none => stageRefused p .badArg s
    | some q =>
      if planePartsSize mask parts ≠ some parts.length then stageRefused p .badArg s
      else if !s.holds p (.plane q) then stageRefused p .notOwner s
      else stageEdit p payload ((planeEditOf q mask parts).map .plane) s
  | _ => stageRefused p .badArg s

/-- The COLOURS edit of a payload whose length has been checked (R57); the reserved byte is 0 (R61). -/
def coloursEditOf (bank : Bank) (first count reserved : Byte) (bytes : List Byte) : Option Edit :=
  if 1 ≤ count.toNat ∧ count.toNat ≤ 16 ∧ first.toNat + count.toNat ≤ 256 ∧ reserved = 0 then
    some (.colours bank first.toNat (coloursOf bytes))
  else none

/-- STAGE_COLOURS (R57, R61). -/
def stageColoursAct (p : Port) (payload : List Byte) (s : State) : Reply × State :=
  match payload with
  | b :: first :: count :: reserved :: bytes =>
    match bankOf b with
    | none => stageRefused p .badArg s
    | some bank =>
      if bytes.length ≠ 3 * count.toNat then stageRefused p .badArg s
      else if !s.holds p (.bank bank) then stageRefused p .notOwner s
      else stageEdit p payload (coloursEditOf bank first count reserved bytes) s
  | _ => stageRefused p .badArg s

/-- STAGE_ORDER (R58, R61). -/
def stageOrderAct (p : Port) (payload : List Byte) (s : State) : Reply × State :=
  match payload with
  | [b, form, q] =>
    match planeOf b with
    | none => stageRefused p .badArg s
    | some plane =>
      if !s.holds p (.plane plane) then stageRefused p .notOwner s
      else stageEdit p payload ((orderFormOf plane form q).map (.order plane)) s
  | _ => stageRefused p .badArg s

/-- The SIGNATURE edit's fields (R59). -/
def signatureEditOf (plane : Plane) (form : Byte) (value : BitVec 32) (limit action : Byte) : Option Edit := do
  let expected ← expectedOf form value
  let limit ← inRange 1 15 limit.toNat
  let action ← actionOf action
  pure (.signature plane expected limit action)

/-- STAGE_SIGNATURE (R59, R61): the claim is judged before the guard. -/
def stageSignatureAct (p : Port) (payload : List Byte) (s : State) : Reply × State :=
  match payload with
  | [b, form, v3, v2, v1, v0, limit, action] =>
    match planeOf b with
    | none => stageRefused p .badArg s
    | some plane =>
      if !s.holds p (.plane plane) then stageRefused p .notOwner s
      else if !s.live.isGuarded plane then stageRefused p .notGuarded s
      else stageEdit p payload (signatureEditOf plane form (word32 v3 v2 v1 v0) limit action) s
  | _ => stageRefused p .badArg s

/-- STAGE_GUARD (R60, R61). -/
def stageGuardAct (p : Port) (payload : List Byte) (s : State) : Reply × State :=
  match payload with
  | [b, op] =>
    match planeOf b with
    | none => stageRefused p .badArg s
    | some plane => stageEdit p payload ((flagOf op).map (.guard plane)) s
  | _ => stageRefused p .badArg s

/-- STAGE_SCAN (R60, R61, R174). -/
def stageScanAct (p : Port) (payload : List Byte) (s : State) : Reply × State :=
  match payload with
  | mask :: parts =>
    if parts.length ≠ scanPartsSize mask then stageRefused p .badArg s
    else stageEdit p payload ((scanEditOf mask parts).map .scan) s
  | [] => stageRefused p .badArg s

/-! ### DISCARD and SEAL -/

/-- DISCARD (R65). -/
def discardAct (p : Port) (payload : List Byte) (s : State) : Reply × State :=
  match payload with
  | [] => (.done .ok [byteOf (s.staged p).list.length], s.setStaged p .empty)
  | _ => (.done .badArg [], s)

/-- The target lies too far ahead (R70): its distance is above 120. -/
def targetTooFar (field : Byte) : Option Byte → Bool
  | none => false
  | some n => Config.targetReach < (n - field).toNat

/-- The batch record that an accepted SEAL makes (R72). -/
def sealedBatch (p : Port) (a : SealArgs) (s : State) : Batch :=
  { port := p, session := (s.session p).number, number := s.nextBatch[p], edits := (s.staged p).list
    cost := editsCost (s.staged p).list, target := a.target, wait := a.wait, remainingWait := Config.waitWindows
    state := .queued, member := false, reached := false, scanned := false, timedOut := none }

/-- An accepted SEAL (R72, R73): the batch stands at the tail, the list is empty, the number is given. -/
def State.sealed (s : State) (p : Port) (b : Batch) : State :=
  { (s.setStaged p .empty).setNextBatch p (nextNumber b.number) with queue := s.queue ++ [b] }

/-- SEAL (R67, Table 4.3). -/
def sealAct (p : Port) (payload : List Byte) (s : State) : Reply × State :=
  match sealArgsOf payload with
  | none => (.done .badArg [], s)
  | some a =>
    let x := s.staged p
    let cost := editsCost x.list
    let budget := s.live.scan.budget
    if x.list.length = 0 then (.done .nothingStaged [], s)
    else if a.count ≠ x.list.length then
      (.done .countMismatch (byteOf x.list.length :: be16 x.check.toNat), s.setStaged p .empty)
    else if a.check ≠ x.check then
      (.done .badCheck (byteOf x.list.length :: be16 x.check.toNat), s.setStaged p .empty)
    else if budget < cost then (.done .tooLarge (be16 cost ++ be16 budget), s.setStaged p .empty)
    else if targetTooFar s.timing.field a.target then (.done .badTarget [s.timing.field], s)
    else if Config.queueSize ≤ s.queue.length ∨ Config.queuePortCap ≤ s.portBatches p then
      (.done .queueFull [byteOf s.queue.length, byteOf (s.portBatches p)], s)
    else
      let b := sealedBatch p a s
      (if a.wait then .inFlight else .done .ok b.acceptance, s.sealed p b)

end Sys2Proof.Machine
end

