-- ==== Sys2Proof/Machine/Edits.lean ====
section
/-! DEFINITION. The edits of a batch on its working copy (R5, R7, R8, R28, R35, R138 to R140), and validation (R86). -/

namespace Sys2Proof.Machine

/-- A plane record with the fields of a PLANE edit's present-set overwritten (R5). -/
def PlaneEdit.apply (e : PlaneEdit) (r : PlaneRecord) : PlaneRecord :=
  { enabled := e.enabled.getD r.enabled
    rect := e.rect.getD r.rect
    source := e.source.getD r.source
    fill := e.fill.getD r.fill
    palette := e.palette.getD r.palette
    mode := e.mode.getD r.mode }

/-- A Scan Record with the fields of a SCAN edit's present-set overwritten (R35). -/
def ScanEdit.apply (e : ScanEdit) (r : ScanRecord) : ScanRecord :=
  { width := e.width.getD r.width
    height := e.height.getD r.height
    hblank := e.hblank.getD r.hblank
    vblank := e.vblank.getD r.vblank
    follow := e.follow.getD r.follow
    lossMargin := e.lossMargin.getD r.lossMargin
    background := e.background.getD r.background
    format := e.format.getD r.format }

/-- Plane p put at the border of the bands: directly below the lowest guarded plane of the rest, which is directly
above its highest unguarded one (R7, R8, R139). -/
def placeAtBorder (guarded : Plane → Bool) (p : Plane) (rest : List Plane) : List Plane :=
  rest.takeWhile (fun q => !guarded q) ++ p :: rest.dropWhile fun q => !guarded q

/-- Plane p at its tentative place between the planes below and above, or clamped to its band when the place breaks the
bands (R8); and whether it was clamped. -/
def placeOrClamp (guarded : Plane → Bool) (p : Plane) (below above : List Plane) : List Plane × Bool :=
  if (if guarded p then above.any fun q => !guarded q else below.any guarded) then
    (placeAtBorder guarded p (below ++ above), true)
  else (below ++ p :: above, false)

/-- The Stacking List after an ORDER edit, and whether it was clamped (R7, R8). -/
def orderPlaced (guarded : Plane → Bool) (p : Plane) (form : OrderForm) (order : List Plane) : List Plane × Bool :=
  let rest := order.erase p
  match form with
  | .top => (if guarded p then rest ++ [p] else placeAtBorder guarded p rest, false)
  | .bottom => (if guarded p then placeAtBorder guarded p rest else p :: rest, false)
  | .above q => placeOrClamp guarded p (rest.take (rest.idxOf q + 1)) (rest.drop (rest.idxOf q + 1))
  | .below q => placeOrClamp guarded p (rest.take (rest.idxOf q)) (rest.drop (rest.idxOf q))

/-- A new guard record (Table 8.2). -/
def GuardRecord.fresh : GuardRecord :=
  { expected := none, latched := none, limit := 3, action := .notify, runCount := 0, held := false,
    lastSignature := none, lastResult := .notCompared, changed := true, note := none }

/-- GUARD set (R138): a plane with no record goes to the top of the Stacking List and gets a new one. -/
def Live.setGuarded (l : Live) (p : Plane) : Live :=
  if l.isGuarded p then l
  else { l with order := l.order.erase p ++ [p], guards := l.guards.set p (some .fresh) }

/-- GUARD clear (R139): the record is removed, and the plane goes directly below the lowest plane that still has one;
it stays where it stands when none has. -/
def Live.clearGuarded (l : Live) (p : Plane) : Live :=
  if l.isGuarded p then
    let guards := l.guards.set p none
    { l with
      guards
      order :=
        if allPlanes.any fun q => guards[q].isSome then placeAtBorder (fun q => guards[q].isSome) p (l.order.erase p)
        else l.order }
  else l

/-- A guard record after a SIGNATURE edit (R140). -/
def GuardRecord.signed (r : GuardRecord) (expected : Option (BitVec 32)) (limit : Nat) (action : GuardAction) :
    GuardRecord :=
  { r with expected, limit, action, runCount := 0, held := false, changed := true }

/-- The working copy after its edit of the given index (1 at the head) (R85). -/
def Work.edit (w : Work) (index : Nat) : Edit → Work
  | .plane e => { w with live := w.live.setPlane e.plane (e.apply w.live.planes[e.plane]) }
  | .colours bank first cs =>
    { w with live := { w.live with palette := paletteWrites w.live.palette (paletteCell bank first) cs } }
  | .order p form =>
    let placed := orderPlaced w.live.isGuarded p form w.live.order
    { w with live := { w.live with order := placed.1 }, clamped := w.clamped || placed.2 }
  | .signature p expected limit action =>
    match w.live.guards[p] with
    | some r => { w with live := w.live.setGuard p (some (r.signed expected limit action)) }
    | none => { w with unguarded := w.unguarded.or (some (index, p)) }
  | .guard p true =>
    { w with
      live := w.live.setGuarded p
      guardSet := if w.live.isGuarded p then w.guardSet else some index }
  | .guard p false => { w with live := w.live.clearGuarded p }
  | .scan e => { w with live := { w.live with pendingScan := e.apply w.live.pendingScan, pendingMark := true } }

/-- The working copy after the edits of a batch from the given index on, in order (R85). -/
def Work.edits (w : Work) (index : Nat) : List Edit → Work
  | [] => w
  | e :: rest => (w.edit index e).edits (index + 1) rest

/-- The working copy as a batch begins: the Live State as it stands (R85, log entry 12). -/
def Work.start (l : Live) : Work := { live := l, clamped := false, guardSet := none, unguarded := none }

/-- The working copy with every edit of a batch applied (R85). -/
def workOf (l : Live) (edits : List Edit) : Work := (Work.start l).edits 1 edits

/-! ### Validation -/

/-- x0 ≤ x1 and y0 ≤ y1 (R3). -/
def Rect.valid (r : Rect) : Bool := r.x0 ≤ r.x1 && r.y0 ≤ r.y1

/-- The first edit, from the given index on, that touches a plane or bank the port does not hold (R87). -/
def firstNotHeld (s : State) (p : Port) : Nat → List Edit → Option (Nat × Resource)
  | _, [] => none
  | index, e :: rest =>
    match e.touched with
    | some r => if (s.claimOf r).owner = some p then firstNotHeld s p (index + 1) rest else some (index, r)
    | none => firstNotHeld s p (index + 1) rest

/-- Of the planes that `sel` finds in the edits, each with the last edit that names it so, the edit that comes first
(the offending edit of BAD_RECT and BANK_NOT_HELD, Table 5.3). -/
def firstOfLasts (sel : Edit → Option Plane) : Nat → List Edit → Option (Nat × Plane)
  | _, [] => none
  | index, e :: rest =>
    match sel e with
    | some p =>
      if rest.any fun e' => sel e' == some p then firstOfLasts sel (index + 1) rest else some (index, p)
    | none => firstOfLasts sel (index + 1) rest

/-- The plane of a PLANE edit that writes a rectangle which the working copy holds invalid. -/
def badRectPlane (l : Live) : Edit → Option Plane
  | .plane e => if e.rect.isSome && !l.planes[e.plane].rect.valid then some e.plane else none
  | .colours _ _ _ => none
  | .order _ _ => none
  | .signature _ _ _ _ => none
  | .guard _ _ => none
  | .scan _ => none

/-- The bank that an enabled plane names and its owner does not hold (R30). -/
def unheldBank (s : State) (l : Live) (p : Plane) : Option Bank :=
  if l.planes[p].enabled then
    match l.planes[p].palette with
    | some b => if (s.planeOwner p).isSome && s.bankOwner b == s.planeOwner p then none else some b
    | none => none
  else none

/-- The plane of a PLANE edit that is enabled and names a bank its owner does not hold. -/
def unheldPlane (s : State) (l : Live) : Edit → Option Plane
  | .plane e => if (unheldBank s l e.plane).isSome then some e.plane else none
  | .colours _ _ _ => none
  | .order _ _ => none
  | .signature _ _ _ _ => none
  | .guard _ _ => none
  | .scan _ => none

/-- NOT_OWNER (Table 5.3, line 1). -/
def judgeOwner (s : State) (p : Port) (edits : List Edit) : Verdict :=
  match firstNotHeld s p 1 edits with
  | some (i, r) => .fail .notOwner i (some r)
  | none => .pass

/-- BAD_RECT (Table 5.3, line 2). -/
def judgeRect (l : Live) (edits : List Edit) : Verdict :=
  match firstOfLasts (badRectPlane l) 1 edits with
  | some (i, p) => .fail .badRect i (some (.plane p))
  | none => .pass

/-- BANK_NOT_HELD (Table 5.3, line 3), over every enabled plane of the working copy (R30). No PLANE edit of the batch
being at fault cannot occur (R88); the index is then 0 (log entry 17). -/
def judgeBank (s : State) (l : Live) (edits : List Edit) : Verdict :=
  match firstOfLasts (unheldPlane s l) 1 edits with
  | some (i, p) => .fail .bankNotHeld i ((unheldBank s l p).map .bank)
  | none =>
    match allPlanes.find? fun p => (unheldBank s l p).isSome with
    | some p => .fail .bankNotHeld 0 ((unheldBank s l p).map .bank)
    | none => .pass

/-- GUARD_FULL (Table 5.3, line 4). -/
def judgeGuards (w : Work) : Verdict :=
  if Config.guardLimit < w.live.guardCount then .fail .guardFull (w.guardSet.getD 0) none else .pass

/-- NOT_GUARDED (Table 5.3, line 5). -/
def judgeSigned (w : Work) : Verdict :=
  match w.unguarded with
  | some (i, p) => .fail .notGuarded i (some (.plane p))
  | none => .pass

/-- The first judgement that fails. -/
def Verdict.orElse (a b : Verdict) : Verdict :=
  match a with
  | .pass => b
  | .fail r i x => .fail r i x

/-- Validation of a working copy, the reasons tried in the order of Table 5.3, with the Claim Table as it stands
(R86, R87). -/
def validate (s : State) (p : Port) (edits : List Edit) (w : Work) : Verdict :=
  (judgeOwner s p edits).orElse <| (judgeRect w.live edits).orElse <| (judgeBank s w.live edits).orElse <|
    (judgeGuards w).orElse (judgeSigned w)

end Sys2Proof.Machine
end

