-- ==== Sys2Proof/Machine/Commit.lean ====
section
/-! DEFINITION. The Commit Controller: the window and its scan, validation, departures, the countdown, WITHDRAW
(chapter 5). -/

namespace Sys2Proof.Machine

/-! ### Opening a window (R78, R81) -/

/-- A target is reached when (c − n) mod 256 is less than 128 (R81). -/
def targetReached (current : Byte) : Option Byte → Bool
  | none => false
  | some n => (current - n).toNat < 128

/-- A batch as a window opens: Queued, it becomes a member, and its target is tested (R78, R81). -/
def Batch.joined (current : Byte) (b : Batch) : Batch :=
  if b.state = .queued then
    { b with member := true, scanned := false, reached := b.reached || targetReached current b.target }
  else b

/-- A window opens with the budget of the Scan Record in force, the current field and its members (R78). -/
def State.openWindow (s : State) : State :=
  { s with
    queue := s.queue.map (Batch.joined s.timing.field)
    window :=
      some { budget := s.live.scan.budget, remaining := s.live.scan.budget, field := s.timing.field, stage := .lapses,
             skipped := [] } }

/-- The batch is due: it has no target, or its target has been reached (R81). -/
def Batch.due (b : Batch) : Bool := b.target.isNone || b.reached

/-! ### Departures (R91 to R94) -/

/-- BATCH_APPLIED (R92). -/
def batchApplied (field : Byte) (b : Batch) (clamped : Bool) : Notice :=
  { Notice.plain .batchApplied field with batch := some b.number, d0 := flagByte clamped }

/-- BATCH_REJECTED (R93). -/
def batchRejected (field : Byte) (b : Batch) (reason : Reason) (index : Nat) (r : Option Resource) : Notice :=
  { Notice.plain .batchRejected field with
    batch := some b.number, resource := r, d0 := reason.code, d1 := byteOf index }

/-- The batch's SEAL still waits: its wait flag is set, and its wait has not run out (R94, R95). -/
def Batch.sealWaits (b : Batch) : Bool := b.wait && b.timedOut.isNone

/-- A TIMEOUT that is still due when its batch leaves is given first (R95, log entry 11). -/
def State.overdueTimeout (s : State) (b : Batch) : State :=
  match b.timedOut with
  | some field => if b.wait then s.complete b.port .timeout (b.acceptance ++ [field]) else s
  | none => s

/-- An applied batch leaves: history entry, then notice or the waiting SEAL's APPLIED (R91, R92, R94). -/
def State.reportApplied (s : State) (field : Byte) (b : Batch) (clamped : Bool) : State :=
  let s := (s.overdueTimeout b).record b.port { number := b.number, outcome := .applied clamped, field }
  if b.sealWaits then s.complete b.port .applied (b.acceptance ++ [field, flagByte clamped])
  else s.post b.port (batchApplied field b clamped)

/-- A rejected batch leaves: history entry, then notice or the waiting SEAL's REJECTED (R91, R93, R94). -/
def State.reportRejected (s : State) (field : Byte) (b : Batch) (reason : Reason) (index : Nat)
    (r : Option Resource) : State :=
  let s := (s.overdueTimeout b).record b.port { number := b.number, outcome := .rejected reason index, field }
  if b.sealWaits then
    s.complete b.port .rejected (b.acceptance ++ [field, reason.code, byteOf index, resourceByte r])
  else s.post b.port (batchRejected field b reason index r)

/-! ### The scan (R82 to R84) -/

/-- A batch is Applying. -/
def State.someApplying (s : State) : Bool := s.queue.any fun b => b.state == .applying

/-- What the scan does with the batch it takes next (Table 5.2). -/
inductive ScanDecision where
  | passOver
  | skip
  | skipNotDue
  | tooLarge
  | stop
  | apply
  deriving DecidableEq, Repr

/-- Table 5.2, its lines in order. -/
def scanDecision (w : Window) (b : Batch) : ScanDecision :=
  if !b.member then .passOver
  else if b.port ∈ w.skipped then .skip
  else if !b.due then .skipNotDue
  else if w.budget < b.cost then .tooLarge
  else if w.remaining < b.cost then .stop
  else .apply

/-- The batch has not been taken by this window's scan. -/
def Batch.unscanned (b : Batch) : Bool := !b.scanned

/-- The queue with the next batch of the scan marked as taken. -/
def markScanned (queue : List Batch) : List Batch :=
  modifyFirst Batch.unscanned (fun b => { b with scanned := true }) queue

/-- The queue with the next batch of the scan Applying. -/
def markApplying (queue : List Batch) : List Batch :=
  modifyFirst Batch.unscanned (fun b => { b with scanned := true, state := .applying }) queue

/-- The scan takes batch b in window w (Table 5.2). -/
def State.scanBatch (s : State) (w : Window) (b : Batch) : State :=
  match scanDecision w b with
  | .passOver => { s with queue := markScanned s.queue }
  | .skip => { s with queue := markScanned s.queue }
  | .skipNotDue => { s with queue := markScanned s.queue, window := some { w with skipped := b.port :: w.skipped } }
  | .tooLarge => { s with queue := s.queue.eraseP Batch.unscanned }.reportRejected w.field b .tooLarge 0 none
  | .stop => { s with window := some { w with stage := .countdown } }
  | .apply => { s with queue := markApplying s.queue, window := some { w with remaining := w.remaining - b.cost } }

/-- WINDOW_SCAN_STEP (R82): taken in stage (c) with no batch Applying (log entry 8). The scan ends when it passes the
tail. -/
def execWindowScanStep (s : State) : Host.Outcome State Fault Refusal :=
  .next <|
    match s.window with
    | some w =>
      if s.nreset && w.stage == .scan && !s.someApplying then
        match s.queue.find? Batch.unscanned with
        | some b => s.scanBatch w b
        | none => { s with window := some { w with stage := .countdown } }
      else s
    | none => s

/-! ### Validation (R85 to R91) -/

/-- The batch is Applying. -/
def Batch.isApplying (b : Batch) : Bool := b.state == .applying

/-- The Applying batch judged and gone from the queue: its working copy is live, or dropped (R89, R90, R91). The copy is
taken of the Live State as it stands here, so that a change of a guard record made while the batch was Applying is kept
(log entry 29). -/
def State.judged (s : State) (field : Byte) (b : Batch) : State :=
  let w := workOf s.live b.edits
  let gone := { s with queue := s.queue.eraseP Batch.isApplying }
  match validate s b.port b.edits w with
  | .pass => { gone with live := w.live }.reportApplied field b w.clamped
  | .fail reason index r => gone.reportRejected field b reason index r

/-- BATCH_VALIDATION (R86): taken while a batch is Applying in the open window (log entry 8). -/
def execBatchValidation (s : State) : Host.Outcome State Fault Refusal :=
  .next <|
    match s.window, s.queue.find? Batch.isApplying with
    | some w, some b => if s.nreset then s.judged w.field b else s
    | some _, none => s
    | none, _ => s

/-! ### The countdown and TIMEOUT (R95) -/

/-- A batch as the window ends: a waiting member loses one from its remaining wait, and the marks of the window are
cleared (R78, R95). -/
def Batch.countedDown (field : Byte) (b : Batch) : Batch :=
  let b' := { b with member := false, scanned := false }
  if b.member && b.sealWaits && b.state == .queued then
    { b' with
      remainingWait := b.remainingWait - 1
      timedOut := if b.remainingWait = 1 then some field else b.timedOut }
  else b'

/-- Stage (c) is over: the scan stopped or passed the tail, or no member is left for it (R82). -/
def State.scanOver (s : State) (w : Window) : Bool :=
  w.stage == .countdown || (w.stage == .scan && s.queue.all fun b => b.scanned || !b.member)

/-- WAIT_COUNTDOWN (R95): the window counts down and ends. Taken after stage (c), with no batch Applying (log entry
8). -/
def execWaitCountdown (s : State) : Host.Outcome State Fault Refusal :=
  .next <|
    match s.window with
    | some w =>
      if s.nreset && s.scanOver w && !s.someApplying then
        { s with queue := s.queue.map (Batch.countedDown w.field), window := none }
      else s
    | none => s

/-- The port's batch whose wait has run out (R95). -/
def Batch.timeoutDue (p : Port) (b : Batch) : Bool := b.port == p && b.wait && b.timedOut.isSome

/-- SEAL_TIMEOUT (R95): the waiting SEAL completes, and its batch goes on as an ordinary one. Taken while it is due
(log entries 8 and 11). -/
def execSealTimeout (p : Port) (s : State) : Host.Outcome State Fault Refusal :=
  .next <|
    match s.queue.find? (Batch.timeoutDue p) with
    | some b =>
      if s.nreset then
        { s with
          queue :=
            modifyFirst (Batch.timeoutDue p) (fun b => { b with wait := false, timedOut := none }) s.queue
        }.complete p .timeout (b.acceptance ++ [b.timedOut.getD 0])
      else s
    | none => s

/-! ### WITHDRAW (R96) -/

/-- The batch of the port's current session with the number. -/
def Batch.isNamed (p : Port) (session number : Byte) (b : Batch) : Bool :=
  b.port == p && b.session == session && b.number == number

/-- What TOO_LATE carries for a history entry (Table 11.3). The reason and edit index bytes of an outcome other than
rejected are free values n and n + 1 (log entry 15). -/
def HistoryEntry.report (e : HistoryEntry) (n : Nat) : List Byte :=
  match e.outcome with
  | .rejected reason index => [e.number, e.outcome.code, reason.code, byteOf index, 0, e.field]
  | .applied clamped =>
    [e.number, e.outcome.code, Config.unstatedByte n, Config.unstatedByte (n + 1), flagByte clamped, e.field]
  | .withdrawn => [e.number, e.outcome.code, Config.unstatedByte n, Config.unstatedByte (n + 1), 0, e.field]
  | .purged => [e.number, e.outcome.code, Config.unstatedByte n, Config.unstatedByte (n + 1), 0, e.field]

/-- WITHDRAW of a number that is not 0 (Table 5.4). Of two batches of the session in the queue with that number the one
nearer the head is meant (log entry 33), of two history entries the older one (log entry 26). -/
def withdrawNumber (p : Port) (n : Byte) (s : State) : Reply × State :=
  match s.queue.find? (Batch.isNamed p (s.session p).number n) with
  | some b =>
    match b.state with
    | .queued =>
      (.done .ok b.acceptance,
        { s with queue := s.queue.eraseP (Batch.isNamed p (s.session p).number n) }.record p
          { number := n, outcome := .withdrawn, field := s.timing.field })
    | .applying => (.done .tooLate [n, 5, 0, 0, 0, 0], s)
  | none =>
    match (s.history p).find? fun e => e.number == n with
    | some e => (.done .tooLate (e.report s.freeIndex), { s with freeIndex := s.freeIndex + 2 })
    | none => (.done .noSuchBatch [], s)

/-- WITHDRAW (R96). -/
def withdrawAct (p : Port) (payload : List Byte) (s : State) : Reply × State :=
  match payload with
  | [n] => if n = 0 then (.done .badArg [], s) else withdrawNumber p n s
  | _ => (.done .badArg [], s)

end Sys2Proof.Machine
end

