-- ==== Sys2Proof/Machine/Compose.lean ====
section
/-! DEFINITION. The Compose Pipeline: clipping, composition of a pixel, stream faults, the output delay (chapters 1 and
2), and the signature of the composed output (R143). -/

namespace Sys2Proof.Machine

/-! ### Clipping and the snapshot -/

/-- A rectangle clipped to an active area of the given width and height; none when it is empty (R3). -/
def Rect.clip (r : Rect) (width height : Nat) : Option Clip :=
  if width ≤ r.x0.val ∨ height ≤ r.y0.val then none
  else some { x0 := r.x0.val, y0 := r.y0.val, x1 := min r.x1.val (width - 1), y1 := min r.y1.val (height - 1) }

/-- The pixel lies in the clipped rectangle. -/
def Clip.contains (c : Clip) (x y : Nat) : Bool := c.x0 ≤ x && x ≤ c.x1 && c.y0 ≤ y && y ≤ c.y1

/-- The pixel lies in a clipped rectangle that may be empty. -/
def clipCovers (c : Option Clip) (x y : Nat) : Bool :=
  match c with
  | some c => c.contains x y
  | none => false

/-- What the Compose Pipeline takes at Field Start (R10). -/
def State.snapshotNow (s : State) : Snapshot :=
  { planes := s.live.planes, order := s.live.order, palette := s.live.palette, scan := s.live.scan
    held := Vector.ofFn s.live.isHeld, owners := Vector.ofFn s.planeOwner }

/-! ### One pixel -/

/-- One channel of a blend: (a × plane + (16 − a) × result + 8) / 16, truncated (R14). -/
def blendChannel (alpha : Nat) (plane result : Byte) : Byte :=
  BitVec.ofNat 8 ((alpha * plane.toNat + (16 - alpha) * result.toNat + 8) / 16)

/-- A plane colour combined with the result by a mode (R13, R14). -/
def combine (mode : Mode) (plane result : Colour) : Colour :=
  match mode with
  | .opaqueMode => plane
  | .keyed key => if plane = key then result else plane
  | .blended alpha =>
    { r := blendChannel alpha.val plane.r result.r
      g := blendChannel alpha.val plane.g result.g
      b := blendChannel alpha.val plane.b result.b }

/-- The colour of an index under a palette field (R25). -/
def indexedColour (store : List (Nat × Colour)) (palette : Option Bank) (index : Byte) : Colour :=
  match palette with
  | some bank => bankEntry store bank index.toNat
  | none => .grey index

/-- The plane colour of a valid Stream B sample (Table 1.5). -/
def streamBColour (snap : Snapshot) (palette : Option Bank) (sample : Colour) : Colour :=
  match snap.scan.format with
  | .direct => sample
  | .indexed => indexedColour snap.palette palette sample.b

/-- The plane is a covering plane of the pixel: enabled, and its clipped rectangle contains it (R11). -/
def Snapshot.covers (snap : Snapshot) (p : Plane) (x y : Nat) : Bool :=
  snap.planes[p].enabled && clipCovers (snap.planes[p].rect.clip snap.scan.width snap.scan.height) x y

/-- A fault set with a substitution by a plane recorded: its owner's record keeps the lowest plane number (R19). -/
def recordFault (owner : Option Port) (p : Plane) (set : Vector (Option Plane) 3) : Vector (Option Plane) 3 :=
  match owner with
  | none => set
  | some o =>
    set.set o
      (match set[o] with
        | none => some p
        | some q => some (if p < q then p else q))

/-- The plane colour of a covering plane that is not held, and the stream whose invalid sample it replaced (R12, R18). -/
def planeColour (snap : Snapshot) (r : PlaneRecord) (a b : Sample) : Colour × Option Stream :=
  match r.source with
  | .fill => (r.fill, none)
  | .streamA => if a.valid then (a.colour, none) else (r.fill, some .a)
  | .streamB => if b.valid then (streamBColour snap r.palette b.colour, none) else (r.fill, some .b)

/-- The walk with a substitution recorded in its stream's fault set (R18, R19). -/
def Walk.recorded (w : Walk) (owner : Option Port) (p : Plane) : Option Stream → Walk
  | none => w
  | some .a => { w with faultA := recordFault owner p w.faultA }
  | some .b => { w with faultB := recordFault owner p w.faultB }

/-- One plane of the walk (R11 to R15, R18). -/
def paint (snap : Snapshot) (x y : Nat) (a b : Sample) (w : Walk) (p : Plane) : Walk :=
  if snap.covers p x y then
    let r := snap.planes[p]
    if snap.held[p] then { w with colour := r.fill }
    else
      let (colour, fault) := planeColour snap r a b
      { w with colour := combine r.mode colour w.colour }.recorded snap.owners[p] p fault
  else w

/-- The walk of the Stacking List from the background up (R11). -/
def walkPixel (snap : Snapshot) (x y : Nat) (a b : Sample) (faultA faultB : Vector (Option Plane) 3) : Walk :=
  snap.order.foldl (paint snap x y a b) { colour := snap.scan.background, faultA, faultB }

/-! ### Pixel periods -/

/-- The delay line one pixel period on (R40). -/
def OutPipe.push (pipe : OutPipe) (w : OutWord) : OutPipe :=
  { pins := pipe.second, second := pipe.third, third := pipe.newest, newest := w }

/-- The delay line after n periods with the same word. -/
def OutPipe.pushes (pipe : OutPipe) (w : OutWord) : Nat → OutPipe
  | 0 => pipe
  | n + 1 => (pipe.pushes w n).push w

/-- The delay line with the colour of the pixel whose samples have just been taken: its period is the last but one (R40). -/
def OutPipe.paint (pipe : OutPipe) (c : Colour) : OutPipe := { pipe with third := { pipe.third with data := c } }

/-- The delay line after the end of a line: the periods of a horizontal blank (R36: at least 16), with OUT_VS as the
region gives it (R16, R40). -/
def OutPipe.lineEnd (vs : Bool) : OutPipe :=
  let w : OutWord := { data := .black, de := false, hs := true, vs }
  { pins := w, second := w, third := w, newest := w }

/-- The counters one pixel period on: every line is W + horizontal blank periods long (R36). -/
def Timing.advance (t : Timing) (scan : ScanRecord) : Timing :=
  if t.pixel + 1 < scan.width + scan.hblank then { t with pixel := t.pixel + 1 }
  else { t with line := t.line + 1, pixel := 0 }

/-- A guard record with a pixel's output colour folded in, when its plane was noted enabled and its noted rectangle
contains the pixel (R143). -/
def GuardRecord.folded (x y : Nat) (c : Colour) (r : GuardRecord) : GuardRecord :=
  match r.note with
  | some n =>
    if n.enabled && clipCovers n.clip x y then { r with note := some { n with signature := foldSignature n.signature c } }
    else r
  | none => r

/-- The Live State with a pixel's output colour folded into every signature that covers it (R143). -/
def Live.foldPixel (l : Live) (x y : Nat) (c : Colour) : Live :=
  { l with guards := Vector.ofFn fun q => l.guards[q].map (GuardRecord.folded x y c) }

/-- Active pixel (x, y) composed from the given samples (R11, R17), its colour given to its period in the delay line (R40)
and folded into the signatures (R143), and the fault sets kept (R19). -/
def State.composePixel (s : State) (x y : Nat) (a b : Sample) : State :=
  let w := walkPixel s.compose.snapshot x y a b s.compose.faultA s.compose.faultB
  { s with
    live := s.live.foldPixel x y w.colour
    compose :=
      { s.compose with
        faultA := w.faultA, faultB := w.faultB, pipe := s.compose.pipe.paint w.colour } }

/-- The counters stand at an active pixel (R36). -/
def State.atActivePixel (s : State) : Bool :=
  s.timing.region == .active && s.timing.line < s.live.scan.height && s.timing.pixel < s.live.scan.width

/-- The running period as OUT_DE, OUT_HS and OUT_VS are to mark it: OUT_DE at an active pixel, OUT_HS in the horizontal
blank, OUT_VS in vertical blanking (R16, R40). The colour of an active pixel is still to come. -/
def State.periodWord (s : State) : OutWord :=
  { data := .black, de := s.atActivePixel, hs := s.live.scan.width ≤ s.timing.pixel, vs := s.timing.region == .blanking }

/-- The edge that ends the running period takes the samples of an active pixel: the edge that begins period x + 2 takes
those of pixel x (R40), and after the last pixels of a line it lies in the horizontal blank. -/
def State.sampleDue (s : State) : Bool :=
  s.timing.region == .active && s.timing.line < s.live.scan.height && 1 ≤ s.timing.pixel
    && s.timing.pixel ≤ s.live.scan.width

/-- The PCLK edge that ends the running period, with the given samples on the stream pins: the counters and the delay line
go on by one (R36, R40), and the pixel whose samples are due is composed from them (R11, R17). -/
def State.edge (s : State) (a b : Sample) : State :=
  let t :=
    { s with
      timing := s.timing.advance s.live.scan
      compose := { s.compose with pipe := s.compose.pipe.push s.periodWord, sampleA := a, sampleB := b } }
  if s.sampleDue then t.composePixel (s.timing.pixel - 1) s.timing.line a b else t

/-- The samples of pixel (x, y) have not been taken yet: the edge that begins period x + 2 of active line y is still to
come (R17, R40). -/
def Timing.ahead (t : Timing) (x y : Nat) : Bool :=
  t.region == .active && (t.line < y || (t.line == y && t.pixel ≤ x + 1))

/-- The delay line when period x + 1 of line y begins to run, x being an active pixel: the periods of the line that went by
unseen carry OUT_DE and no colour, and before them stands the end of the line before (log entry 9). -/
def State.pipeAt (s : State) (x y : Nat) : OutPipe :=
  let w : OutWord := { data := .black, de := true, hs := false, vs := false }
  if s.timing.line < y then (OutPipe.lineEnd false).pushes w (min 4 (x + 1))
  else s.compose.pipe.pushes w (min 4 (x + 1 - s.timing.pixel))

/-- The counters in period x + 1 of active line y; what lies between goes by (log entry 9). -/
def State.skipTo (s : State) (x y : Nat) : State :=
  { s with
    timing := { s.timing with line := y, pixel := x + 1 }
    compose := { s.compose with pipe := s.pipeAt x y } }

/-- PIXEL_COMPOSE (R11): the edge that begins period x + 2 of line y, which takes the samples of active pixel (x, y) (R40).
Taken while that edge is still to come (log entries 8 and 9). -/
def execPixelCompose (x y : Nat) (a b : Sample) (s : State) : Host.Outcome State Fault Refusal :=
  .next <|
    if s.nreset && s.timing.ahead x y && x < s.live.scan.width && y < s.live.scan.height then (s.skipTo x y).edge a b
    else s

/-! ### Stream fault reports -/

/-- STREAM_FAULT (R20). -/
def streamFault (field : Byte) (stream : Stream) (p : Plane) : Notice :=
  { Notice.plain .streamFault field with resource := some (.plane p), d0 := stream.code }

/-- The report of one stream's fault set: one notice to each Attached port of the set (R20). -/
def State.reportStream (s : State) (stream : Stream) (set : Vector (Option Plane) 3) (ports : List Port) : State :=
  ports.foldl
    (fun s p =>
      match set[p] with
      | some q => s.postAttached (streamFault s.timing.field stream q) p
      | none => s)
    s

/-- STREAM_FAULT_REPORT (R20): Stream A, then Stream B. Taken once after each Blank Start (log entry 8). -/
def execStreamFaultReport (s : State) : Host.Outcome State Fault Refusal :=
  .next <|
    if s.nreset && s.compose.reportDue then
      let s := (s.reportStream .a s.compose.faultA allPorts).reportStream .b s.compose.faultB allPorts
      { s with compose := { s.compose with reportDue := false } }
    else s

end Sys2Proof.Machine
end

