-- ==== Sys2Proof/Machine/Monitor.lean ====
section
/-! DEFINITION. The Signature Monitor: what it latches and notes at Field Start, and the comparisons of a Blank Start
(chapter 8). -/

namespace Sys2Proof.Machine

/-- A guard record at Field Start (R142): the expected value latched, the plane's enabled state and clipped rectangle
noted, the changed mark cleared, a signature begun at 0. -/
def GuardRecord.atFieldStart (r : GuardRecord) (plane : PlaneRecord) (scan : ScanRecord) : GuardRecord :=
  { r with
    latched := r.expected
    changed := false
    note := some { enabled := plane.enabled, clip := plane.rect.clip scan.width scan.height, signature := 0 } }

/-- The Guard List at Field Start, under the Scan Record in force (R142). -/
def Live.latchGuards (l : Live) : Live :=
  { l with guards := Vector.ofFn fun q => l.guards[q].map fun r => r.atFieldStart l.planes[q] l.scan }

/-- The record is compared at this Blank Start (R144); firstField says that the field took a new Scan Record. -/
def GuardRecord.isCompared (r : GuardRecord) (firstField : Bool) : Bool :=
  match r.note with
  | some n => n.enabled && r.latched.isSome && !r.changed && !firstField
  | none => false

/-- A record whose plane was noted enabled: the computed signature becomes its last signature (R144). -/
def GuardRecord.ended (r : GuardRecord) : GuardRecord :=
  match r.note with
  | some n => if n.enabled then { r with lastSignature := some n.signature } else r
  | none => r

/-- A compared record's last signature equals its latched expected (R145). -/
def GuardRecord.agrees (r : GuardRecord) : Bool := r.ended.lastSignature == r.latched

/-- The mismatch brings the run count to the limit (R145, R146). -/
def GuardRecord.reachesLimit (r : GuardRecord) : Bool := r.runCount < r.limit && r.runCount + 1 == r.limit

/-- A record after a Blank Start (R144 to R146). -/
def GuardRecord.judged (r : GuardRecord) (firstField : Bool) : GuardRecord :=
  if r.isCompared firstField then
    if r.agrees then { r.ended with lastResult := .isMatch, runCount := 0 }
    else
      { r.ended with
        lastResult := .mismatch
        runCount := if r.runCount < r.limit then r.runCount + 1 else r.runCount
        held := r.held || (r.reachesLimit && r.action == .substitute) }
  else { r.ended with lastResult := .notCompared }

/-- SIGNATURE_MISMATCH (R145): its detail holds the run count, which is 1. -/
def signatureMismatch (field : Byte) (p : Plane) : Notice :=
  { Notice.plain .signatureMismatch field with resource := some (.plane p), d0 := 1 }

/-- SIGNATURE_LIMIT (R146). -/
def signatureLimit (field : Byte) (p : Plane) (owner : Port) (r : GuardRecord) : Notice :=
  { Notice.plain .signatureLimit field with
    subject := some owner, resource := some (.plane p), d0 := r.action.code, d1 := byteOf r.limit }

/-- SIGNATURE_LIMIT posted to the owner, and to the supervisor when it is not the owner (R146). -/
def State.postLimit (s : State) (owner : Port) (n : Notice) : State :=
  let s := s.post owner n
  if s.supervisor = some owner then s else s.postSupervisor n

/-- The notices of one record's comparison (R145, R146). -/
def State.postComparison (s : State) (p : Plane) (r : GuardRecord) : State :=
  match s.planeOwner p with
  | none => s
  | some owner =>
    if r.isCompared s.monitor.newScan && !r.agrees then
      let s := if r.runCount = 0 ∧ 0 < r.limit then s.post owner (signatureMismatch s.timing.field p) else s
      if r.reachesLimit then s.postLimit owner (signatureLimit s.timing.field p owner r) else s
    else s

/-- The comparison of one plane's record, if it has one (R144). -/
def State.comparePlane (s : State) (p : Plane) : State :=
  match s.live.guards[p] with
  | none => s
  | some r => { s with live := s.live.setGuard p (some (r.judged s.monitor.newScan)) }.postComparison p r

/-- SIGNATURE_COMPARE (R144): the records in increasing plane number. Taken once after each Blank Start (log entry 8). -/
def execSignatureCompare (s : State) : Host.Outcome State Fault Refusal :=
  .next <|
    if s.nreset && s.monitor.compareDue then
      let s := allPlanes.foldl State.comparePlane s
      { s with monitor := { s.monitor with compareDue := false } }
    else s

end Sys2Proof.Machine
end

