-- ==== Sys2Proof/Machine/Timing.lean ====
section
/-! DEFINITION. The Timing Generator: reference following, Field Start, Blank Start, WAIT_FIELD, device reset, and the
pixel period that an idle step is (chapter 3, R172). -/

namespace Sys2Proof.Machine

/-! ### The reference (R42 to R45) -/

/-- The vertical blanking ends at the start of blanking line j (R43, R44). -/
def Timing.blankingEndsAt (t : Timing) (scan : ScanRecord) (j : Nat) : Bool :=
  match t.refState with
  | .free => scan.vblank ≤ j
  | .holdover => scan.vblank ≤ j
  | .locked => (t.pendingRef && scan.vblank ≤ j) || scan.vblank + scan.lossMargin ≤ j

/-- The blanking line whose start the flag is looked at next: the counters' own while its first period runs. -/
def Timing.nextLineStart (t : Timing) : Nat := if t.pixel = 0 then t.line else t.line + 1

/-- The blanking line at whose start the running blanking ends, if no further pulse comes (R43, R44; log entry 10). -/
def Timing.blankingEnd (t : Timing) (scan : ScanRecord) : Nat :=
  match t.refState with
  | .free => scan.vblank
  | .holdover => scan.vblank
  | .locked => if t.pendingRef then max scan.vblank t.nextLineStart else scan.vblank + scan.lossMargin

/-- The reference state, the flag, and the notice of the blanking that ends (R43 to R45). -/
def Timing.endBlanking (t : Timing) : RefState × Bool × Option NoticeKind :=
  match t.refState with
  | .free => (.free, t.pendingRef, none)
  | .holdover => if t.pendingRef then (.locked, false, some .referenceFound) else (.holdover, false, none)
  | .locked => if t.pendingRef then (.locked, false, none) else (.holdover, false, some .referenceLost)

/-- REF_IN_PULSE (R42): it sets the flag in HOLDOVER and LOCKED, and is ignored otherwise. -/
def execRefInPulse (s : State) : Host.Outcome State Fault Refusal :=
  .next <|
    if s.nreset && s.timing.refState != .free then { s with timing := { s.timing with pendingRef := true } } else s

/-! ### Field Start (R37) -/

/-- Table 3.3: the reference state and the flag when a record is taken. -/
def followTaken (old new : ScanRecord) (r : RefState × Bool) : RefState × Bool :=
  match old.follow, new.follow with
  | false, false => r
  | false, true => (.holdover, false)
  | true, false => (.free, false)
  | true, true => r

/-- SCAN_CHANGED (R47). -/
def scanChanged (field : Byte) (old new : ScanRecord) : Notice :=
  { Notice.plain .scanChanged field with d0 := scanChangedFlags old new }

/-- The end of the blanking at the Timing Generator: field number, length of the blanking, reference state, and
REFERENCE_LOST or REFERENCE_FOUND to the supervisor (R39, R43 to R45). -/
def State.endBlanking (s : State) : State :=
  let e := s.timing.endBlanking
  let field := s.timing.field + 1
  let s :=
    { s with
      timing :=
        { s.timing with
          field, refState := e.1, pendingRef := e.2.1, lastBlanking := s.timing.blankingEnd s.live.scan } }
  match e.2.2 with
  | some kind => s.postSupervisor (.plain kind field)
  | none => s

/-- The pending Scan Record taken, and SCAN_CHANGED posted to every Attached port, when the pending mark is set (R46,
R47). -/
def State.takeScan (s : State) : State :=
  if s.live.pendingMark then
    let old := s.live.scan
    let new := s.live.pendingScan
    let r := followTaken old new (s.timing.refState, s.timing.pendingRef)
    let s :=
      { s with
        live := { s.live with scan := new, pendingMark := false }
        timing := { s.timing with refState := r.1, pendingRef := r.2 } }
    allPorts.foldl (fun s p => s.postAttached (scanChanged s.timing.field old new) p) s
  else s

/-- A waiter one Field Start on (R50): at 0 its completion is due with the new field number. -/
def Waiter.counted (field : Byte) (w : Waiter) : Waiter :=
  match w.due with
  | some _ => w
  | none => { remaining := w.remaining - 1, due := if w.remaining ≤ 1 then some field else none }

/-- The counters at the start of a field, and the waiters counted down (R37, R50). -/
def Timing.startField (t : Timing) : Timing :=
  { t with
    region := .active, line := 0, pixel := 0
    waiters := Vector.ofFn fun p => t.waiters[p].map (Waiter.counted t.field) }

/-- What the other blocks do at Field Start: the snapshot, the fault sets emptied, the latches and notes (R10, R19,
R142). newScan says that this Field Start took a new Scan Record. -/
def State.beginField (s : State) (newScan : Bool) : State :=
  { s with
    timing := s.timing.startField
    live := s.live.latchGuards
    monitor := { newScan, compareDue := false }
    compose :=
      { s.compose with
        snapshot := s.snapshotNow, faultA := Vector.replicate 3 none, faultB := Vector.replicate 3 none
        reportDue := false } }

/-- FIELD_START (R37): taken in vertical blanking with no window open; the rest of the blanking goes by (log entries 8,
9 and 10). -/
def execFieldStart (s : State) : Host.Outcome State Fault Refusal :=
  .next <|
    if s.nreset && s.timing.region == .blanking && s.window.isNone then
      let newScan := s.live.pendingMark
      let s := { s with compose := { s.compose with pipe := .lineEnd true } }
      s.endBlanking.takeScan.beginField newScan
    else s

/-! ### Blank Start (R38) -/

/-- BLANK_START (R38): taken in the active region; what is left of it goes by (log entries 8 and 9). The window opens,
and the comparison and the report of the field are due. -/
def execBlankStart (s : State) : Host.Outcome State Fault Refusal :=
  .next <|
    if s.nreset && s.timing.region == .active then
      { s.openWindow with
        timing := { s.timing with region := .blanking, line := 0, pixel := 0 }
        monitor := { s.monitor with compareDue := true }
        compose := { s.compose with reportDue := true, pipe := .lineEnd false } }
    else s

/-! ### WAIT_FIELD (R49, R50) -/

/-- WAIT_FIELD (R49). -/
def waitFieldAct (p : Port) (payload : List Byte) (s : State) : Reply × State :=
  match payload with
  | [k] =>
    if 1 ≤ k.toNat ∧ k.toNat ≤ 16 then (.inFlight, s.setWaiter p (some { remaining := k.toNat, due := none }))
    else (.done .badArg [], s)
  | _ => (.done .badArg [], s)

/-- WAIT_FIELD_COMPLETION (R50): the waiter whose count has reached 0 completes with the field number. Taken while it is
due (log entries 8 and 11). -/
def execWaitFieldCompletion (p : Port) (s : State) : Host.Outcome State Fault Refusal :=
  .next <|
    match s.timing.waiters[p] with
    | some w =>
      match w.due with
      | some field => if s.nreset then (s.setWaiter p none).complete p .ok [field] else s
      | none => s
    | none => s

/-! ### Device reset (R172, R41) -/

/-- NRESET_ASSERT (R172): every block takes its device reset state, and the straps are sampled. The commands that wait
outside are not the part's (log entry 25), and the free values already used are not used again (log entry 15). -/
def execNresetAssert (addrsel : Bool) (supsel : BitVec 2) (s : State) : Host.Outcome State Fault Refusal :=
  .next { State.deviceReset false addrsel supsel s.pending with freeIndex := s.freeIndex }

/-- NRESET_RELEASE (R41): Field Start of field 0 is taken at once. NRESET that is high already does not return. -/
def execNresetRelease (s : State) : Host.Outcome State Fault Refusal :=
  .next (if s.nreset then s else { s with nreset := true }.beginField false)

/-! ### A pixel period of PCLK (log entry 4) -/

/-- The open window must end before the next blanking line begins, because that line is line V (R38). -/
def State.windowEndDue (s : State) : Bool :=
  s.window.isSome && s.live.scan.vblank ≤ s.timing.line + 1
    && s.live.scan.width + s.live.scan.hblank ≤ s.timing.pixel + 1

/-- An event must be taken before the running period ends: Blank Start, the Field Start that ends the blanking, or the end
of the open window. -/
def State.eventDue (s : State) : Bool :=
  match s.timing.region with
  | .active => s.live.scan.height ≤ s.timing.line
  | .blanking =>
    (s.timing.pixel == 0 && s.timing.blankingEndsAt s.live.scan s.timing.line) || s.windowEndDue

/-- One pixel period of PCLK with every input held (log entries 3 and 4): the edge that ends the running period takes the
stream pins as they stand. Nothing goes on while NRESET is low or an event is due. -/
def State.tick (s : State) : State :=
  if !s.nreset || s.eventDue then s else s.edge s.compose.sampleA s.compose.sampleB

/-- SRC_LS: high for pixel period 0 of every line (R40, R41). -/
def State.srcLs (s : State) : Bool := s.nreset && s.timing.pixel == 0

/-- SRC_FS: high for pixel period 0 of active line 0 (R40, R41). -/
def State.srcFs (s : State) : Bool := s.srcLs && s.timing.region == .active && s.timing.line == 0

/-- OUT_D, OUT_DE, OUT_HS and OUT_VS (R16, R40). -/
def State.outPins (s : State) : OutWord := s.compose.pipe.pins

end Sys2Proof.Machine
end

