-- ==== Sys2Proof/Machine/Ports.lean ====
section
/-! DEFINITION. The Control Port Interfaces: addresses, frames, the common checks, responses and bus hold (chapter 10);
and the frame commands, each the writing of its frame. -/

namespace Sys2Proof.Machine

/-! ### The owning blocks (Table 10.4) -/

/-- The action of the block that owns a command (R164, check 4). -/
def ownerAct (c : Command) (p : Port) (session : Byte) (payload : List Byte) (s : State) : Reply × State :=
  match c with
  | .status => statusAct p payload s
  | .attach => attachAct p session payload s
  | .detach => detachAct p payload s
  | .evict => evictAct p payload s
  | .claim => claimAct p payload s
  | .release => releaseAct p payload s
  | .revoke => revokeAct payload s
  | .stagePlane => stagePlaneAct p payload s
  | .stageColours => stageColoursAct p payload s
  | .stageOrder => stageOrderAct p payload s
  | .stageSignature => stageSignatureAct p payload s
  | .stageGuard => stageGuardAct p payload s
  | .stageScan => stageScanAct p payload s
  | .discard => discardAct p payload s
  | .seal => sealAct p payload s
  | .withdraw => withdrawAct p payload s
  | .waitField => waitFieldAct p payload s
  | .readNotices => readNoticesAct p payload s
  | .queryPlane => queryPlaneAct payload s
  | .queryOrder => queryOrderAct payload s
  | .queryColours => queryColoursAct payload s
  | .queryScan => queryScanAct payload s
  | .queryGuard => queryGuardAct payload s

/-! ### Taking a frame (R162 to R164) -/

/-- The answer of a taken frame put into port p's slot (R163). -/
def State.answer (s : State) (p : Port) (k : Completion) (code : Byte) (payload : List Byte) : State :=
  s.setCpi p ((s.cpi p).answered k code payload)

/-- The end of a taken command: an immediate one restarts the lease and is answered; the other is in flight (R106,
R164). -/
def State.finish (s : State) (p : Port) (code : Byte) : Reply → State
  | .done k payload => (s.restartLease p).answer p k code payload
  | .inFlight => s.setCpi p ((s.cpi p).launched code)

/-- A command whose session check has passed (R164, checks 3 and 4). -/
def State.runCommand (s : State) (p : Port) (c : Command) (session : Byte) (payload : List Byte) : State :=
  if c.supervisorOnly ∧ s.supervisor ≠ some p then s.finish p c.code (.done .notSupervisor [])
  else
    let r := ownerAct c p session payload s
    r.2.finish p c.code r.1

/-- A well-formed frame judged by the four checks (R164). -/
def State.takeCommand (s : State) (p : Port) (code session : Byte) (payload : List Byte) : State :=
  match Command.ofCode code with
  | none => s.answer p .unknownCommand code []
  | some c =>
    match sessionRefusal c (s.session p) session with
    | some k => s.answer p k code []
    | none => s.runCommand p c session payload

/-- FRAME_ERROR: the first byte is echoed, 0x00 when there is none; the payload is the detail and the number of bytes
received (R162, R169). -/
def State.frameError (s : State) (p : Port) (detail : Byte) : State :=
  s.answer p .frameError ((s.cpi p).buffer.headD 0) [detail, byteOf (s.cpi p).buffer.length]

/-- The frame buffer judged (R162): FRAME_ERROR with the first detail of Table 10.3 that applies, or the frame taken. -/
def State.judgeFrame (s : State) (p : Port) : State :=
  if (s.cpi p).long then s.frameError p 1
  else
    match (s.cpi p).buffer with
    | code :: session :: n :: payload =>
      if n.toNat ≤ 61 ∧ payload.length = n.toNat then s.takeCommand p code session payload else s.frameError p 3
    | _ => s.frameError p 2

/-- The port back in the state it left, after an empty write (R162). -/
def Cpi.backToPrior (c : Cpi) : Cpi :=
  { c with
    state := match c.prior with | .idle => .idle | .holding => .holding
    bus := .free }

/-- The end of a write transaction of the port (R162); a refused write just ends. -/
def State.endWrite (s : State) (p : Port) : State :=
  match (s.cpi p).bus with
  | .writing =>
    if (s.cpi p).buffer.isEmpty && !(s.cpi p).long then s.setCpi p (s.cpi p).backToPrior else s.judgeFrame p
  | .writeRefused => s.setCpi p { s.cpi p with bus := .free }
  | .free | .ignoring | .readHeld | .readNone | .readPending _ | .stretching => s

/-! ### Reading (R166) -/

/-- All 4 + m bytes of the held response have been read. -/
def Cpi.fullyRead (c : Cpi) (bytesRead : Nat) : Bool :=
  match c.slot with
  | some r => r.bytes.length ≤ bytesRead
  | none => false

/-- The CPI whose held response has been consumed (R166). -/
def Cpi.consumed (c : Cpi) : Cpi := { c with state := .idle, slot := none, pendingGiven := false, bus := .free }

/-- The end of a read transaction after a number of bytes (R166, R167). A stretched read has sent no byte yet and cannot
end (R168). -/
def State.endRead (s : State) (p : Port) (bytesRead : Nat) : State :=
  match (s.cpi p).bus with
  | .readHeld =>
    if (s.cpi p).fullyRead bytesRead then s.setCpi p (s.cpi p).consumed else s.setCpi p { s.cpi p with bus := .free }
  | .readNone | .readPending _ => s.setCpi p { s.cpi p with bus := .free }
  | .free | .ignoring | .writing | .writeRefused | .stretching => s

/-- What the part sends in the read in progress, before the 0xFF that follow (R166 to R168). -/
def Cpi.sending (c : Cpi) : List Byte :=
  match c.bus with
  | .readHeld =>
    match c.slot with
    | some r => r.bytes
    | none => []
  | .readNone => [Completion.none.code, 0, 0, 0]
  | .readPending code => [Completion.pending.code, 0, code, 0]
  | .free | .ignoring | .writing | .writeRefused | .stretching => []

/-- Byte k of the read in progress: 0xFF after the last byte of the response (R166). -/
def State.sentByte (s : State) (p : Port) (k : Nat) : Byte := (s.cpi p).sending[k]?.getD 0xFF

/-! ### Address bytes (R159, R161) -/

/-- The port's target address: base + k (R159). -/
def State.address (s : State) (p : Port) : Nat := (if s.addrsel then 0x4C else 0x2C) + p.val

/-- The address byte of a write to the port: direction bit 0 (R159). -/
def State.writeAddress (s : State) (p : Port) : Byte := byteOf (s.address p * 2)

/-- The address byte of a read of the port: direction bit 1 (R159). -/
def State.readAddress (s : State) (p : Port) : Byte := byteOf (s.address p * 2 + 1)

/-- A START or repeated START on the port's bus ends the port's transaction in progress, if there is one (R159, R162, R166;
log entry 7). A port that ignores the bus takes notice of a START again, and of no repeated START (R169, R172). -/
def State.startCondition (s : State) (p : Port) (kind : StartKind) : State :=
  match (s.cpi p).bus, kind with
  | .ignoring, .start => s.setCpi p { s.cpi p with bus := .free }
  | _, _ => (s.endWrite p).endRead p 0

/-- The CPI whose write address match is acknowledged, with the data bytes that follow: 64 are kept, one more sets the
LONG mark (R161). -/
def Cpi.received (c : Cpi) (prior : PriorState) (data : List Byte) : Cpi :=
  { c with state := .receiving, prior, buffer := data.take 64, long := 64 < data.length, bus := .writing }

/-- A write address byte and the data bytes after it (R161). -/
def State.writeMatch (s : State) (p : Port) (address : AddressByte) (data : List Byte) : State :=
  let s := s.startCondition p address.kind
  if address.byte ≠ s.writeAddress p then s
  else
    match (s.cpi p).bus, (s.cpi p).state with
    | .free, .idle => s.setCpi p ((s.cpi p).received .idle data)
    | .free, .holding => s.setCpi p ((s.cpi p).received .holding data)
    | .free, .executing => s.setCpi p { s.cpi p with bus := .writeRefused }
    | _, _ => s

/-- A read address byte (R166 to R168). -/
def State.readMatch (s : State) (p : Port) (address : AddressByte) : State :=
  let s := s.startCondition p address.kind
  if address.byte ≠ s.readAddress p then s
  else
    match (s.cpi p).bus, (s.cpi p).state with
    | .free, .idle => s.setCpi p { s.cpi p with bus := .readNone }
    | .free, .holding => s.setCpi p { s.cpi p with bus := .readHeld }
    | .free, .executing => s.setCpi p { s.cpi p with bus := .stretching }
    | _, _ => s

/-! ### The bus events -/

/-- WRITE_ADDRESS_MATCH (R161). While NRESET is low the port acknowledges no address (R172). -/
def execWriteAddressMatch (p : Port) (address : AddressByte) (data : List Byte) (s : State) :
    Host.Outcome State Fault Refusal :=
  .next (if s.nreset then s.writeMatch p address data else s)

/-- FRAME_TAKEN (R162). -/
def execFrameTaken (p : Port) (s : State) : Host.Outcome State Fault Refusal :=
  .next (if s.nreset then s.endWrite p else s)

/-- READ_ADDRESS_MATCH (R166). -/
def execReadAddressMatch (p : Port) (address : AddressByte) (s : State) : Host.Outcome State Fault Refusal :=
  .next (if s.nreset then s.readMatch p address else s)

/-- READ_END (R166). -/
def execReadEnd (p : Port) (bytesRead : Nat) (s : State) : Host.Outcome State Fault Refusal :=
  .next (if s.nreset then s.endRead p bytesRead else s)

/-- The CPI at the end of the stretch limit: PENDING is sent, and pending-given is set (R168). -/
def Cpi.pendingSent (c : Cpi) : Cpi := { c with bus := .readPending (c.inFlight.getD 0), pendingGiven := true }

/-- STRETCH_LIMIT_EXPIRY (R168): taken while the port stretches SCL (log entry 8). -/
def execStretchLimitExpiry (p : Port) (s : State) : Host.Outcome State Fault Refusal :=
  .next (if s.nreset && s.sclHeld p then s.setCpi p (s.cpi p).pendingSent else s)

/-- The port ignores the bus until the next START (R169). -/
def State.ignoreBus (s : State) (p : Port) : State := s.setCpi p { s.cpi p with bus := .ignoring }

/-- The abandonment of the port's transaction (R169): FRAME_ERROR HOLD in Receiving, else the transaction just ends; a
stretched read is released (log entry 13). The port then ignores the bus until the next START. -/
def State.abandon (s : State) (p : Port) : State :=
  match (s.cpi p).bus with
  | .writing => (s.frameError p 4).ignoreBus p
  | .writeRefused | .readHeld | .readNone | .readPending _ | .stretching => s.ignoreBus p
  | .free | .ignoring => s

/-- BUS_HOLD_ABANDON (R169). -/
def execBusHoldAbandon (p : Port) (s : State) : Host.Outcome State Fault Refusal :=
  .next (if s.nreset then s.abandon p else s)

/-! ### The frame commands (R173): each writes its frame to the port in one transaction (log entry 6) -/

/-- A command frame: code, session byte, payload length, payload (R173). -/
def frameBytes (c : Command) (session : Byte) (payload : List Byte) : List Byte :=
  c.code :: session :: byteOf payload.length :: payload

/-- A whole write transaction with the frame: the START and the address byte, the bytes of the frame, the end. -/
def State.sendFrame (s : State) (p : Port) (c : Command) (session : Byte) (payload : List Byte) : State :=
  if s.nreset then (s.writeMatch p ⟨.start, s.writeAddress p⟩ (frameBytes c session payload)).endWrite p else s

/-- STATUS (R171): the block's action is `statusAct`. -/
def execStatus (p : Port) (session : Byte) (payload : List Byte) (s : State) : Host.Outcome State Fault Refusal :=
  .next (s.sendFrame p .status session payload)

/-- ATTACH (R104): the block's action is `attachAct`. -/
def execAttach (p : Port) (session : Byte) (payload : List Byte) (s : State) : Host.Outcome State Fault Refusal :=
  .next (s.sendFrame p .attach session payload)

/-- DETACH (R108): the block's action is `detachAct`. -/
def execDetach (p : Port) (session : Byte) (payload : List Byte) (s : State) : Host.Outcome State Fault Refusal :=
  .next (s.sendFrame p .detach session payload)

/-- EVICT (R109): the block's action is `evictAct`. -/
def execEvict (p : Port) (session : Byte) (payload : List Byte) (s : State) : Host.Outcome State Fault Refusal :=
  .next (s.sendFrame p .evict session payload)

/-- CLAIM (R120): the block's action is `claimAct`. -/
def execClaim (p : Port) (session : Byte) (payload : List Byte) (s : State) : Host.Outcome State Fault Refusal :=
  .next (s.sendFrame p .claim session payload)

/-- CLAIM ANY-PLANE (R121): a CLAIM frame of kind ANY-PLANE; the block's action is `claimAny`. -/
def execClaimAnyPlane (p : Port) (session number : Byte) (s : State) : Host.Outcome State Fault Refusal :=
  .next (s.sendFrame p .claim session [2, number])

/-- RELEASE (R125): the block's action is `releaseAct`. -/
def execRelease (p : Port) (session : Byte) (payload : List Byte) (s : State) : Host.Outcome State Fault Refusal :=
  .next (s.sendFrame p .release session payload)

/-- REVOKE (R130): the block's action is `revokeAct`. -/
def execRevoke (p : Port) (session : Byte) (payload : List Byte) (s : State) : Host.Outcome State Fault Refusal :=
  .next (s.sendFrame p .revoke session payload)

/-- STAGE_PLANE (R56): the block's action is `stagePlaneAct`. -/
def execStagePlane (p : Port) (session : Byte) (payload : List Byte) (s : State) : Host.Outcome State Fault Refusal :=
  .next (s.sendFrame p .stagePlane session payload)

/-- STAGE_COLOURS (R57): the block's action is `stageColoursAct`. -/
def execStageColours (p : Port) (session : Byte) (payload : List Byte) (s : State) : Host.Outcome State Fault Refusal :=
  .next (s.sendFrame p .stageColours session payload)

/-- STAGE_ORDER (R58): the block's action is `stageOrderAct`. -/
def execStageOrder (p : Port) (session : Byte) (payload : List Byte) (s : State) : Host.Outcome State Fault Refusal :=
  .next (s.sendFrame p .stageOrder session payload)

/-- STAGE_SIGNATURE (R59): the block's action is `stageSignatureAct`. -/
def execStageSignature (p : Port) (session : Byte) (payload : List Byte) (s : State) : Host.Outcome State Fault Refusal :=
  .next (s.sendFrame p .stageSignature session payload)

/-- STAGE_GUARD (R60): the block's action is `stageGuardAct`. -/
def execStageGuard (p : Port) (session : Byte) (payload : List Byte) (s : State) : Host.Outcome State Fault Refusal :=
  .next (s.sendFrame p .stageGuard session payload)

/-- STAGE_SCAN (R60): the block's action is `stageScanAct`. -/
def execStageScan (p : Port) (session : Byte) (payload : List Byte) (s : State) : Host.Outcome State Fault Refusal :=
  .next (s.sendFrame p .stageScan session payload)

/-- DISCARD (R65): the block's action is `discardAct`. -/
def execDiscard (p : Port) (session : Byte) (payload : List Byte) (s : State) : Host.Outcome State Fault Refusal :=
  .next (s.sendFrame p .discard session payload)

/-- SEAL (R68): the block's action is `sealAct`. -/
def execSeal (p : Port) (session : Byte) (payload : List Byte) (s : State) : Host.Outcome State Fault Refusal :=
  .next (s.sendFrame p .seal session payload)

/-- WITHDRAW (R96): the block's action is `withdrawAct`. -/
def execWithdraw (p : Port) (session : Byte) (payload : List Byte) (s : State) : Host.Outcome State Fault Refusal :=
  .next (s.sendFrame p .withdraw session payload)

/-- WAIT_FIELD (R49): the block's action is `waitFieldAct`. -/
def execWaitField (p : Port) (session : Byte) (payload : List Byte) (s : State) : Host.Outcome State Fault Refusal :=
  .next (s.sendFrame p .waitField session payload)

/-- READ_NOTICES (R155): the block's action is `readNoticesAct`. -/
def execReadNotices (p : Port) (session : Byte) (payload : List Byte) (s : State) : Host.Outcome State Fault Refusal :=
  .next (s.sendFrame p .readNotices session payload)

/-- QUERY_PLANE (R21): the block's action is `queryPlaneAct`. -/
def execQueryPlane (p : Port) (session : Byte) (payload : List Byte) (s : State) : Host.Outcome State Fault Refusal :=
  .next (s.sendFrame p .queryPlane session payload)

/-- QUERY_ORDER (R22): the block's action is `queryOrderAct`. -/
def execQueryOrder (p : Port) (session : Byte) (payload : List Byte) (s : State) : Host.Outcome State Fault Refusal :=
  .next (s.sendFrame p .queryOrder session payload)

/-- QUERY_COLOURS (R31): the block's action is `queryColoursAct`. -/
def execQueryColours (p : Port) (session : Byte) (payload : List Byte) (s : State) : Host.Outcome State Fault Refusal :=
  .next (s.sendFrame p .queryColours session payload)

/-- QUERY_SCAN (R51): the block's action is `queryScanAct`. -/
def execQueryScan (p : Port) (session : Byte) (payload : List Byte) (s : State) : Host.Outcome State Fault Refusal :=
  .next (s.sendFrame p .queryScan session payload)

/-- QUERY_GUARD (R149): the block's action is `queryGuardAct`. -/
def execQueryGuard (p : Port) (session : Byte) (payload : List Byte) (s : State) : Host.Outcome State Fault Refusal :=
  .next (s.sendFrame p .queryGuard session payload)

end Sys2Proof.Machine
end

