-- ==== Sys2Proof/Machine/Dispatch.lean ====
section
/-! DEFINITION. One arm for each row of the table. -/

namespace Sys2Proof.Machine

def exec (i : Instr) (s : State) : Host.Outcome State Fault Refusal :=
  match i with
  | .status p session payload => Sys2Proof.Machine.execStatus p session payload s
  | .attach p session payload => Sys2Proof.Machine.execAttach p session payload s
  | .detach p session payload => Sys2Proof.Machine.execDetach p session payload s
  | .evict p session payload => Sys2Proof.Machine.execEvict p session payload s
  | .claim p session payload => Sys2Proof.Machine.execClaim p session payload s
  | .claimAnyPlane p session number => Sys2Proof.Machine.execClaimAnyPlane p session number s
  | .release p session payload => Sys2Proof.Machine.execRelease p session payload s
  | .revoke p session payload => Sys2Proof.Machine.execRevoke p session payload s
  | .stagePlane p session payload => Sys2Proof.Machine.execStagePlane p session payload s
  | .stageColours p session payload => Sys2Proof.Machine.execStageColours p session payload s
  | .stageOrder p session payload => Sys2Proof.Machine.execStageOrder p session payload s
  | .stageSignature p session payload => Sys2Proof.Machine.execStageSignature p session payload s
  | .stageGuard p session payload => Sys2Proof.Machine.execStageGuard p session payload s
  | .stageScan p session payload => Sys2Proof.Machine.execStageScan p session payload s
  | .discard p session payload => Sys2Proof.Machine.execDiscard p session payload s
  | .seal p session payload => Sys2Proof.Machine.execSeal p session payload s
  | .withdraw p session payload => Sys2Proof.Machine.execWithdraw p session payload s
  | .waitField p session payload => Sys2Proof.Machine.execWaitField p session payload s
  | .readNotices p session payload => Sys2Proof.Machine.execReadNotices p session payload s
  | .queryPlane p session payload => Sys2Proof.Machine.execQueryPlane p session payload s
  | .queryOrder p session payload => Sys2Proof.Machine.execQueryOrder p session payload s
  | .queryColours p session payload => Sys2Proof.Machine.execQueryColours p session payload s
  | .queryScan p session payload => Sys2Proof.Machine.execQueryScan p session payload s
  | .queryGuard p session payload => Sys2Proof.Machine.execQueryGuard p session payload s
  | .writeAddressMatch p address data => Sys2Proof.Machine.execWriteAddressMatch p address data s
  | .frameTaken p => Sys2Proof.Machine.execFrameTaken p s
  | .readAddressMatch p address => Sys2Proof.Machine.execReadAddressMatch p address s
  | .readEnd p bytesRead => Sys2Proof.Machine.execReadEnd p bytesRead s
  | .stretchLimitExpiry p => Sys2Proof.Machine.execStretchLimitExpiry p s
  | .busHoldAbandon p => Sys2Proof.Machine.execBusHoldAbandon p s
  | .nresetAssert addrsel supsel => Sys2Proof.Machine.execNresetAssert addrsel supsel s
  | .nresetRelease => Sys2Proof.Machine.execNresetRelease s
  | .fieldStart => Sys2Proof.Machine.execFieldStart s
  | .waitFieldCompletion p => Sys2Proof.Machine.execWaitFieldCompletion p s
  | .refInPulse => Sys2Proof.Machine.execRefInPulse s
  | .pixelCompose x y a b => Sys2Proof.Machine.execPixelCompose x y a b s
  | .blankStart => Sys2Proof.Machine.execBlankStart s
  | .streamFaultReport => Sys2Proof.Machine.execStreamFaultReport s
  | .signatureCompare => Sys2Proof.Machine.execSignatureCompare s
  | .stageALapses => Sys2Proof.Machine.execStageALapses s
  | .stageBRevocations => Sys2Proof.Machine.execStageBRevocations s
  | .windowScanStep => Sys2Proof.Machine.execWindowScanStep s
  | .batchValidation => Sys2Proof.Machine.execBatchValidation s
  | .waitCountdown => Sys2Proof.Machine.execWaitCountdown s
  | .sealTimeout p => Sys2Proof.Machine.execSealTimeout p s
  | .leaseTick => Sys2Proof.Machine.execLeaseTick s
  | .leaseExpiry p => Sys2Proof.Machine.execLeaseExpiry p s

end Sys2Proof.Machine
end

