-- ==== Sys2Proof/Safety.lean ====
section
/-! DEFINITION. The laws of the spec as predicates on a state, and what the statements say of an answer. -/

namespace Sys2Proof.Machine

/-! ### Well-formed edits (R56 to R60) -/

/-- A value, when it is present, lies in a range. -/
def optionIn (lo hi : Nat) : Option Nat → Prop
  | some n => lo ≤ n ∧ n ≤ hi
  | none => True

/-- The present-set of a PLANE edit holds at least one field (R56). -/
def PlaneEdit.nonempty (e : PlaneEdit) : Prop :=
  e.enabled.isSome ∨ e.rect.isSome ∨ e.source.isSome ∨ e.fill.isSome ∨ e.palette.isSome ∨ e.mode.isSome

/-- The present-set of a SCAN edit holds at least one field (R60). -/
def ScanEdit.nonempty (e : ScanEdit) : Prop :=
  e.width.isSome ∨ e.height.isSome ∨ e.hblank.isSome ∨ e.vblank.isSome ∨ e.follow.isSome ∨ e.lossMargin.isSome
    ∨ e.background.isSome ∨ e.format.isSome

/-- Every value of a SCAN edit lies in the range of Table 3.1 (R60). -/
def ScanEdit.inRange (e : ScanEdit) : Prop :=
  optionIn 16 2048 e.width ∧ optionIn 16 2048 e.height ∧ optionIn 16 1024 e.hblank ∧ optionIn 4 255 e.vblank
    ∧ optionIn 1 255 e.lossMargin

/-- The names of an ORDER form differ from its plane (R58). -/
def OrderForm.avoids (p : Plane) : OrderForm → Prop
  | .top => True
  | .bottom => True
  | .above q => q ≠ p
  | .below q => q ≠ p

/-- An edit with every field in the range that staging checks (R56 to R60). -/
def Edit.wf : Edit → Prop
  | .plane e => e.nonempty
  | .colours _ first cs => 1 ≤ cs.length ∧ cs.length ≤ 16 ∧ first < 256 ∧ first + cs.length ≤ 256
  | .order p form => form.avoids p
  | .signature _ _ limit _ => 1 ≤ limit ∧ limit ≤ 15
  | .guard _ _ => True
  | .scan e => e.nonempty ∧ e.inRange

/-- Every field of a Scan Record lies in the range of Table 3.1 (R33). -/
def ScanRecord.inRange (r : ScanRecord) : Prop :=
  16 ≤ r.width ∧ r.width ≤ 2048 ∧ 16 ≤ r.height ∧ r.height ≤ 2048 ∧ 16 ≤ r.hblank ∧ r.hblank ≤ 1024
    ∧ 4 ≤ r.vblank ∧ r.vblank ≤ 255 ∧ 1 ≤ r.lossMargin ∧ r.lossMargin ≤ 255

/-! ### The laws -/

/-- The picture (R3, R6, R136, log entry 20): the Stacking List holds each plane once, with every guarded plane above
every unguarded one; at most 4 planes are guarded; every rectangle is valid; no run count exceeds its limit; the Palette
Store is in canonical form. -/
structure PictureLaw (s : State) : Prop where
  order : s.live.order.Perm allPlanes
  bands : ∀ q ∈ s.live.order.dropWhile (fun q => !s.live.isGuarded q), s.live.isGuarded q = true
  guards : s.live.guardCount ≤ 4
  rects : ∀ p : Plane, s.live.planes[p].rect.valid = true
  runs : ∀ (p : Plane) (r : GuardRecord), s.live.guards[p] = some r → r.runCount ≤ r.limit
  palette : Memory.wf s.live.palette = true

/-- The output on its way to the panel (R16, R40): a period that OUT_DE does not mark carries (0, 0, 0), one that it marks
lies outside both blanks, and the period just gone by is marked exactly while the samples of its pixel are due; none is
marked while NRESET is low (R172). -/
structure OutputLaw (s : State) : Prop where
  words : ∀ w ∈ [s.compose.pipe.pins, s.compose.pipe.second, s.compose.pipe.third, s.compose.pipe.newest],
    (w.de = false → w.data = .black) ∧ (w.de = true → w.hs = false ∧ w.vs = false)
  due : s.compose.pipe.newest.de = s.sampleDue
  low : s.nreset = false → s.compose.pipe.newest.de = false

/-- Ownership (R2, R101, R118): every enabled plane has an owner, which holds the bank the plane names; every owner is
Attached or Lapsing. -/
structure OwnershipLaw (s : State) : Prop where
  enabled : ∀ p : Plane, s.live.planes[p].enabled = true → (s.planeOwner p).isSome = true
  banks : ∀ (p : Plane) (b : Bank), s.live.planes[p].enabled = true → s.live.planes[p].palette = some b →
    s.bankOwner b = s.planeOwner p
  planeOwners : ∀ (p : Plane) (o : Port), s.planeOwner p = some o → (s.session o).state ≠ .detached
  bankOwners : ∀ (b : Bank) (o : Port), s.bankOwner b = some o → (s.session o).state ≠ .detached

/-- Capacities (R52, R75, R77, R150). -/
structure CapacityLaw (s : State) : Prop where
  queue : s.queue.length ≤ 8
  portQueue : ∀ p : Port, s.portBatches p ≤ 4
  pool : s.poolUsed ≤ 96
  records : ∀ p : Port, s.recordsInUse p ≤ 48
  notices : ∀ p : Port, (s.noticeQueue p).records.length ≤ 16
  dropped : ∀ p : Port, (s.noticeQueue p).dropped ≤ 255
  histories : ∀ p : Port, (s.history p).length ≤ 8

/-- The port interface states (R160, Tables 10.1 and 10.2) of one CPI. -/
structure Cpi.Lawful (c : Cpi) : Prop where
  inFlight : c.inFlight.isSome = true ↔ c.state = .executing
  slotIdle : c.state = .idle → c.slot = none
  slotExecuting : c.state = .executing → c.slot = none
  slotHolding : c.state = .holding → c.slot.isSome = true
  prior : c.state = .receiving → (c.prior = .holding ↔ c.slot.isSome = true)
  writing : c.bus = .writing ↔ c.state = .receiving
  buffer : c.buffer.length ≤ 64 ∧ (c.state ≠ .receiving → c.buffer = [] ∧ c.long = false)
  readHeld : c.bus = .readHeld → c.state = .holding
  readNone : c.bus = .readNone → c.state = .idle
  stretching : c.bus = .stretching → c.state = .executing
  lostMark : c.lostMark = true → c.state = .executing
  pendingGiven : c.pendingGiven = true → c.state ≠ .idle
  pendingPrior : c.state = .receiving → c.prior = .idle → c.pendingGiven = false

/-- Every CPI is in one of the states of Table 10.2. -/
def PortLaw (s : State) : Prop := ∀ p : Port, (s.cpi p).Lawful

/-- The commands of a port that an owning block holds: a WAIT_FIELD, and SEALs that wait (R165). -/
def State.heldCommands (s : State) (p : Port) : Nat :=
  (if s.timing.waiters[p].isSome then 1 else 0) + s.queue.countP fun b => b.port == p && b.wait

/-- A port is Executing exactly while an owning block holds one command of it, and never two (R49, R74, R165). -/
def InFlightLaw (s : State) : Prop :=
  ∀ p : Port, s.heldCommands p = if (s.cpi p).state = .executing then 1 else 0

/-- The window and the field (R34, R38, R76, R78, R82). -/
structure WindowLaw (s : State) : Prop where
  active : s.timing.region = .active → s.window = none ∧ s.live.pendingMark = false
  pending : s.live.pendingMark = false → s.live.pendingScan = s.live.scan
  snapshot : s.compose.snapshot.scan = s.live.scan
  closed : s.window = none → ∀ b ∈ s.queue, b.state = .queued ∧ b.member = false
  oneApplying : s.queue.countP Batch.isApplying ≤ 1
  applying : ∀ w, s.window = some w → s.someApplying = true → w.stage = .scan
  budget : ∀ w, s.window = some w → w.remaining ≤ w.budget
  field : ∀ w, s.window = some w → w.field = s.timing.field
  low : s.nreset = false → s.timing.region = .active
  lines : ∀ w, s.window = some w → s.timing.line < s.live.scan.vblank

/-- Every staged and queued edit, and so every Scan Record, is in range (R33, R60). -/
structure RangeLaw (s : State) : Prop where
  staged : ∀ p : Port, ∀ e ∈ (s.staged p).list, e.wf
  queued : ∀ b ∈ s.queue, ∀ e ∈ b.edits, e.wf
  scan : s.live.scan.inRange
  pendingScan : s.live.pendingScan.inRange

/-- Sessions and leases (R101, R102, R104, R105, R106) at one port. -/
structure Session.Lawful (s : State) (p : Port) (x : Session) : Prop where
  lapseSet : x.inLapseSet = true ↔ x.state = .lapsing
  number : x.state ≠ .detached → x.number ≠ 0
  role : x.state ≠ .detached → x.role = s.roleOf p
  lease : x.state = .attached → x.role = .member → x.interval ≠ 0
  remaining : x.remaining ≤ x.interval
  stopped : x.state ≠ .attached → x.remaining = 0
  runs : x.state = .attached → x.interval ≠ 0 → x.remaining ≠ 0

/-- Every Session Table entry is lawful; a port that is not Attached has nothing staged, and no batch but one that is
Applying, and a Detached one none at all; every batch is of its port's present session (R66, R98); an empty Staged List
has the check 0xFFFF (R64). -/
structure SessionLaw (s : State) : Prop where
  entry : ∀ p : Port, (s.session p).Lawful s p
  staged : ∀ p : Port, (s.session p).state ≠ .attached → s.staged p = Staging.empty
  check : ∀ p : Port, (s.staged p).list = [] → (s.staged p).check = 0xFFFF
  queued : ∀ b ∈ s.queue, (s.session b.port).state ≠ .attached → b.state = .applying
  noBatch : ∀ b ∈ s.queue, (s.session b.port).state = .detached → False
  current : ∀ b ∈ s.queue, b.session = (s.session b.port).number

/-- The reference state is FREE exactly while follow is no in the record in force, and the pending-reference flag is
then clear (Table 3.2, R42, R46). -/
structure ReferenceLaw (s : State) : Prop where
  follow : s.timing.refState = .free ↔ s.live.scan.follow = false
  flag : s.timing.refState = .free → s.timing.pendingRef = false

/-! ### What the statements say of an answer -/

/-- No transaction of the port is in progress: it listens to the bus, or ignores it until the next START (R169, R172). -/
def State.BusQuiet (s : State) (p : Port) : Prop := (s.cpi p).bus = .free ∨ (s.cpi p).bus = .ignoring

/-- A START, or a repeated START, reaches the port, which has no transaction in progress (R159, R169, R172). -/
def State.Hears (s : State) (p : Port) (kind : StartKind) : Prop :=
  (s.cpi p).bus = .free ∨ ((s.cpi p).bus = .ignoring ∧ kind = .start)

/-- NRESET is high, no transaction of the port is in progress, and the port is Idle or Holding: a frame can be taken. -/
def State.Ready (s : State) (p : Port) : Prop :=
  s.nreset = true ∧ s.BusQuiet p ∧ ((s.cpi p).state = .idle ∨ (s.cpi p).state = .holding)

/-- The port is Attached and the session byte is its session number (Table 6.2). -/
def State.InSession (s : State) (p : Port) (session : Byte) : Prop :=
  (s.session p).state = .attached ∧ session = (s.session p).number

/-- Port p's frame was written in one transaction, taken and answered: the response stands in the slot, LOST exactly
when it dropped an unread one, and the prior state says the same (R160 to R163). Nothing else changes. -/
def State.withAnswer (s : State) (p : Port) (k : Completion) (code : Byte) (payload : List Byte) : State :=
  s.setCpi p
    { s.cpi p with
      state := .holding, prior := if (s.cpi p).state = .holding then .holding else .idle, buffer := [], long := false
      slot := some { completion := k, lost := (s.cpi p).slot.isSome, code, payload }
      pendingGiven := false, bus := .free }

/-- The frame was answered, and the lease of the port, which is Attached, was restarted (R106). -/
def State.withReply (s : State) (p : Port) (k : Completion) (code : Byte) (payload : List Byte) : State :=
  (s.withAnswer p k code payload).setSession p { s.session p with remaining := (s.session p).interval }

/-- The frame was answered; the lease was restarted if the port is Attached (R106, R155, R171). -/
def State.withReplyInAnyState (s : State) (p : Port) (k : Completion) (code : Byte) (payload : List Byte) : State :=
  if (s.session p).state = .attached then s.withReply p k code payload else s.withAnswer p k code payload

/-- The frame was taken, and its command is in flight: the slot is empty, and the lost mark says whether an unread
response was dropped (R163, R164). -/
def State.withLaunch (s : State) (p : Port) (code : Byte) : State :=
  s.setCpi p
    { s.cpi p with
      state := .executing, prior := if (s.cpi p).state = .holding then .holding else .idle, buffer := [], long := false
      slot := none, lostMark := (s.cpi p).slot.isSome, inFlight := some code, pendingGiven := false, bus := .free }

/-- The row of the table that writes a frame of the command. -/
def Command.row (p : Port) (session : Byte) (payload : List Byte) : Command → Instr
  | .status => .status p session payload
  | .attach => .attach p session payload
  | .detach => .detach p session payload
  | .evict => .evict p session payload
  | .claim => .claim p session payload
  | .release => .release p session payload
  | .revoke => .revoke p session payload
  | .stagePlane => .stagePlane p session payload
  | .stageColours => .stageColours p session payload
  | .stageOrder => .stageOrder p session payload
  | .stageSignature => .stageSignature p session payload
  | .stageGuard => .stageGuard p session payload
  | .stageScan => .stageScan p session payload
  | .discard => .discard p session payload
  | .seal => .seal p session payload
  | .withdraw => .withdraw p session payload
  | .waitField => .waitField p session payload
  | .readNotices => .readNotices p session payload
  | .queryPlane => .queryPlane p session payload
  | .queryOrder => .queryOrder p session payload
  | .queryColours => .queryColours p session payload
  | .queryScan => .queryScan p session payload
  | .queryGuard => .queryGuard p session payload

/-- The command whose STAGE frame carries an edit (Table 4.1). -/
def Edit.command : Edit → Command
  | .plane _ => .stagePlane
  | .colours _ _ _ => .stageColours
  | .order _ _ => .stageOrder
  | .signature _ _ _ _ => .stageSignature
  | .guard _ _ => .stageGuard
  | .scan _ => .stageScan

/-- The payload has the length of its kind of STAGE frame, reckoned by its mask or its count where it has one (R61, Tables
11.1 and 11.2); a PLANE mask with bit 6 or 7 set has none. -/
def Command.lengthFits (payload : List Byte) : Command → Bool
  | .stagePlane =>
    match payload with
    | _ :: mask :: parts => planePartsSize mask parts == some parts.length
    | _ => false
  | .stageColours =>
    match payload with
    | _ :: _ :: count :: _ :: bytes => bytes.length == 3 * count.toNat
    | _ => false
  | .stageOrder => payload.length == 3
  | .stageSignature => payload.length == 8
  | .stageGuard => payload.length == 2
  | .stageScan =>
    match payload with
    | mask :: parts => parts.length == scanPartsSize mask
    | [] => false
  | .status | .attach | .detach | .evict | .claim | .release | .revoke | .discard | .seal | .withdraw | .waitField
  | .readNotices | .queryPlane | .queryOrder | .queryColours | .queryScan | .queryGuard => false

/-- The plane or bank that must be held to stage an edit (Table 4.1); none for the supervisor's own kinds. -/
def Edit.claimed : Edit → Option Resource
  | .plane e => some (.plane e.plane)
  | .colours bank _ _ => some (.bank bank)
  | .order q _ => some (.plane q)
  | .signature q _ _ _ => some (.plane q)
  | .guard _ _ => none
  | .scan _ => none

/-- The plane that must be guarded to stage an edit (Table 4.1). -/
def Edit.guardNeeded : Edit → Option Plane
  | .signature q _ _ _ => some q
  | .plane _ | .colours _ _ _ | .order _ _ | .guard _ _ | .scan _ => none

/-- The authority of Table 4.1. -/
def State.MayStage (s : State) (p : Port) (e : Edit) : Prop :=
  (∀ r, e.claimed = some r → s.claimOf r = .held p) ∧ (e.claimed = none → s.supervisor = some p)
    ∧ ∀ q, e.guardNeeded = some q → s.live.isGuarded q = true

/-- The kind and number bytes of CLAIM, RELEASE and REVOKE (Tables 11.1 and 11.5). -/
def Resource.bytes : Resource → List Byte
  | .plane p => [0, byteOf p.val]
  | .bank b => [1, byteOf b.val]

/-- What a STAGE answer carries of a list and its check (Table 11.3). -/
def stageReport (list : List Edit) (check : BitVec 16) : List Byte :=
  [byteOf list.length] ++ be16 (editsCost list) ++ be16 check.toNat

/-- SEAL's payload (Table 11.1); `ignored` is the target field byte of NEXT. -/
def sealPayload (count : Byte) (check : BitVec 16) (target : Option Byte) (ignored : Byte) (wait : Bool) : List Byte :=
  [count] ++ be16 check.toNat ++ (match target with | none => [0, ignored] | some n => [1, n]) ++ [flagByte wait]

/-- A notice queue after posts taken one after the other (R152, R153). -/
def NoticeQueue.takes (q : NoticeQueue) (posts : List Notice) : NoticeQueue := posts.foldl NoticeQueue.take q

end Sys2Proof.Machine
end

