-- ==== Sys2Proof/Certificates/Slice0/Obligations.lean ====
section
/-! DEFINITION. The statements for the provers: what the step, device reset, every command and the laws of the spec say.

`withReply`, `withAnswer` and `withLaunch` (Safety.lean) are the whole next state of a frame command beside its effect, so
an equation `exec c s = .next …` states the command's result and its frame together. -/

open Sys2Proof Sys2Proof.Machine

/-! ### The step -/

/-- The step takes the command at the front of the queue and runs it with the queue's rest. -/
def Obligations.StepTakesTheFrontCommand : Prop :=
  ∀ (c : Instr) (rest : List Instr) (s : State), step { s with pending := c :: rest } = exec c { s with pending := rest }

/-- The model's choice of log entry 4: with no command waiting one pixel period goes by, the stream pins held as they stand
(log entry 3). Nothing goes on while NRESET is low, nor at Blank Start, at the end of the blanking (R43, R44), nor at the
end of line V - 1 with the window still open (R38). Otherwise the counters go on by one (R36), the delay line of the outputs
too, the period that ends being marked by OUT_DE at an active pixel, OUT_HS in the horizontal blank, OUT_VS in vertical
blanking (R16, R40); in period x + 1 of an active line the edge takes the samples of pixel x and composes it (R40). The
outputs are the delay line's oldest word, and SRC_LS and SRC_FS mark period 0 of a line and of active line 0. -/
def Obligations.IdleStepIsOnePixelPeriod : Prop :=
  (∀ s : State, s.pending = [] →
     let scan := s.live.scan
     let blankingEnds : Prop :=
       match s.timing.refState with
       | .free | .holdover => scan.vblank ≤ s.timing.line
       | .locked =>
         (s.timing.pendingRef = true ∧ scan.vblank ≤ s.timing.line) ∨ scan.vblank + scan.lossMargin ≤ s.timing.line
     let waits : Prop :=
       s.nreset = false ∨ (s.timing.region = .active ∧ scan.height ≤ s.timing.line)
       ∨ (s.timing.region = .blanking ∧ s.timing.pixel = 0 ∧ blankingEnds)
       ∨ (s.timing.region = .blanking ∧ s.window.isSome = true ∧ scan.vblank ≤ s.timing.line + 1
         ∧ scan.width + scan.hblank ≤ s.timing.pixel + 1)
     let activeLine : Prop := s.timing.region = .active ∧ s.timing.line < scan.height
     let gone : State :=
       { s with
         timing :=
           if s.timing.pixel + 1 < scan.width + scan.hblank then { s.timing with pixel := s.timing.pixel + 1 }
           else { s.timing with line := s.timing.line + 1, pixel := 0 }
         compose :=
           { s.compose with
             pipe :=
               { pins := s.compose.pipe.second, second := s.compose.pipe.third, third := s.compose.pipe.newest
                 newest :=
                   { data := ⟨0, 0, 0⟩, de := decide (activeLine ∧ s.timing.pixel < scan.width)
                     hs := decide (scan.width ≤ s.timing.pixel), vs := decide (s.timing.region = .blanking) } } } }
     (waits → step s = .next s)
     ∧ (¬ waits → activeLine → 1 ≤ s.timing.pixel → s.timing.pixel ≤ scan.width →
         step s
           = .next (gone.composePixel (s.timing.pixel - 1) s.timing.line s.compose.sampleA s.compose.sampleB))
     ∧ (¬ waits → (activeLine → s.timing.pixel = 0 ∨ scan.width < s.timing.pixel) → step s = .next gone))
  ∧ (∀ s : State, s.outPins = s.compose.pipe.pins
      ∧ (s.srcLs = true ↔ s.nreset = true ∧ s.timing.pixel = 0)
      ∧ (s.srcFs = true ↔
          s.nreset = true ∧ s.timing.region = .active ∧ s.timing.line = 0 ∧ s.timing.pixel = 0))

/-- Every command answers a next state, and none touches the commands that wait. Both clauses rest on the model's choices:
NRESET_ASSERT keeps the waiting commands by log entry 25, and an event row that its rule cannot take changes nothing by log
entry 8. -/
def Obligations.EveryCommandAnswersNextAndKeepsTheQueue : Prop :=
  ∀ (c : Instr) (s : State), ∃ t, exec c s = .next t ∧ t.pending = s.pending

/-! ### Device reset -/

/-- The values the spec gives for device reset (R1, R6, R16, R19, R23, R33, R34, R41, R52, R54, R64, R73, R75, R77, R101, R118,
R136, R142, R150, Table 10.1): among them the counters at the start of a field, the low and black outputs, the empty fault
sets, the clear note of a new Scan Record, the device reset contents as what the first field shows, and a port that waits
for the next START (R172). While NRESET is low SRC_FS and SRC_LS are low. -/
def Obligations.ResetStateHasTheValuesOfTheSpec : Prop :=
  (∀ q : Plane, State.reset.live.planes[q] =
      { enabled := false, rect := ⟨0, 0, 0, 0⟩, source := .fill, fill := ⟨0, 0, 0⟩, palette := none, mode := .opaqueMode }
    ∧ State.reset.planeOwner q = none ∧ State.reset.live.isGuarded q = false ∧ State.reset.live.isHeld q = false)
  ∧ State.reset.live.order = [0, 1, 2, 3, 4, 5, 6, 7, 8, 9, 10, 11, 12, 13, 14, 15]
  ∧ (∀ (b : Bank) (i : Byte), bankEntry State.reset.live.palette b i.toNat = ⟨i, i, i⟩ ∧ State.reset.claimOf (.bank b) = .free)
  ∧ State.reset.live.scan =
      { width := 640, height := 480, hblank := 160, vblank := 45, follow := false, lossMargin := 16,
        background := ⟨0, 0, 0⟩, format := .direct }
  ∧ State.reset.live.pendingScan = State.reset.live.scan ∧ State.reset.live.pendingMark = false
  ∧ (∀ p : Port,
      State.reset.cpi p =
        { state := .idle, buffer := [], long := false, prior := .idle, slot := none, inFlight := none,
          pendingGiven := false, lostMark := false, bus := .ignoring }
      ∧ State.reset.attn p = false ∧ State.reset.sclHeld p = false
      ∧ State.reset.noticeQueue p = { records := [], dropped := 0 }
      ∧ State.reset.session p =
        { state := .detached, number := 0, role := .none, interval := 0, remaining := 0, inLapseSet := false,
          cause := .none, purged := 0 }
      ∧ State.reset.staged p = { list := [], check := 0xFFFF } ∧ State.reset.recordsInUse p = 0
      ∧ State.reset.history p = [] ∧ State.reset.nextBatch[p] = 1 ∧ State.reset.timing.waiters[p] = none)
  ∧ State.reset.poolFree = 96 ∧ State.reset.queue = [] ∧ State.reset.window = none
  ∧ State.reset.timing.field = 0 ∧ State.reset.timing.refState = .free ∧ State.reset.timing.pendingRef = false
  ∧ State.reset.timing.lastBlanking = 0
  ∧ State.reset.timing.region = .active ∧ State.reset.timing.line = 0 ∧ State.reset.timing.pixel = 0
  ∧ (let low : OutWord := { data := ⟨0, 0, 0⟩, de := false, hs := false, vs := false }
     State.reset.outPins = low ∧ State.reset.compose.pipe = ⟨low, low, low, low⟩)
  ∧ State.reset.compose.snapshot.planes = State.reset.live.planes ∧ State.reset.compose.snapshot.order = State.reset.live.order
  ∧ State.reset.compose.snapshot.palette = State.reset.live.palette ∧ State.reset.compose.snapshot.scan = State.reset.live.scan
  ∧ (∀ q : Plane, State.reset.compose.snapshot.held[q] = false ∧ State.reset.compose.snapshot.owners[q] = none)
  ∧ (∀ p : Port, State.reset.compose.faultA[p] = none ∧ State.reset.compose.faultB[p] = none)
  ∧ State.reset.monitor.newScan = false
  ∧ { State.reset with nreset := false }.srcFs = false ∧ { State.reset with nreset := false }.srcLs = false

/-- Every law holds right after device reset. -/
def Obligations.EveryLawHoldsAtReset : Prop :=
  PictureLaw State.reset ∧ RangeLaw State.reset ∧ OutputLaw State.reset ∧ OwnershipLaw State.reset
    ∧ CapacityLaw State.reset ∧ PortLaw State.reset ∧ InFlightLaw State.reset ∧ WindowLaw State.reset
    ∧ ReferenceLaw State.reset ∧ SessionLaw State.reset

/-- NRESET low gives every block its device reset state, whatever the state was, and samples the straps (R172, R100, R115);
what it keeps is the model's own: the commands that wait (log entry 25) and the free values used (log entry 15). NRESET
returning high takes Field Start of the field whose number stands, at once (R41, R39, R16): no new Scan Record is taken,
SRC_FS is high, the snapshot is that of the Live State (R10), the fault sets are emptied (R19), each guard record is
latched and noted (R142), a waiter that stands counts down (R50). -/
def Obligations.DeviceResetAndItsRelease : Prop :=
  (∀ (addrsel : Bool) (supsel : BitVec 2) (s : State),
     exec (.nresetAssert addrsel supsel) s
       = .next
         { State.reset with
           nreset := false, addrsel, supsel, pending := s.pending, freeIndex := s.freeIndex })
  ∧ (∀ s : State, s.nreset = false →
       let clip : Rect → Option Clip := fun r =>
         if s.live.scan.width ≤ r.x0.val ∨ s.live.scan.height ≤ r.y0.val then none
         else
           some
             { x0 := r.x0.val, y0 := r.y0.val, x1 := min r.x1.val (s.live.scan.width - 1)
               y1 := min r.y1.val (s.live.scan.height - 1) }
       ∃ t, exec .nresetRelease s = .next t ∧ t.srcFs = true
         ∧ (∀ p : Port, t.timing.waiters[p] =
             match s.timing.waiters[p] with
             | none => none
             | some w =>
               if w.due.isSome then some w
               else some { remaining := w.remaining - 1, due := if w.remaining ≤ 1 then some s.timing.field else none })
         ∧ (∀ q : Plane,
             t.compose.snapshot.held[q] = s.live.isHeld q ∧ t.compose.snapshot.owners[q] = s.planeOwner q
             ∧ t.live.guards[q] =
               (s.live.guards[q].map fun r : GuardRecord =>
                 { r with
                   latched := r.expected, changed := false
                   note := some
                     { enabled := s.live.planes[q].enabled
                       clip := clip s.live.planes[q].rect, signature := 0 } }))
         ∧ t = { s with
             nreset := true
             timing := { s.timing with region := .active, line := 0, pixel := 0, waiters := t.timing.waiters }
             compose :=
               { s.compose with
                 snapshot :=
                   { planes := s.live.planes, order := s.live.order, palette := s.live.palette, scan := s.live.scan
                     held := t.compose.snapshot.held, owners := t.compose.snapshot.owners }
                 faultA := Vector.replicate 3 none, faultB := Vector.replicate 3 none, reportDue := false }
             monitor := { newScan := false, compareDue := false }
             live := { s.live with guards := t.live.guards } })

/-! ### Frame commands: the checks common to all of them -/

/-- A frame command's row is one whole write transaction, which is the model's reading of it (log entry 6): the address byte
with the frame's bytes (R173), then its end. An Executing port does not acknowledge it, and nothing happens (R161); nor
while NRESET is low (R172). It begins with a START, which a port hears also when it ignores the bus after an abandonment or
a device reset (R169, R172). One that comes while a transaction of the port is still open ends that one first (R159; log
entry 7): a write as by FRAME_TAKEN, a read as by READ_END with no byte read; a stretched read, where the part holds SCL
low, lets no START through. -/
def Obligations.FrameCommandIsOneWriteTransaction : Prop :=
  ∀ (s : State) (p : Port) (c : Command) (session : Byte) (payload : List Byte), payload.length ≤ 61 →
    (s.Ready p →
      ∃ t, exec (.writeAddressMatch p ⟨.start, s.writeAddress p⟩ (c.code :: session :: byteOf payload.length :: payload)) s
          = .next t
        ∧ exec (.frameTaken p) t = exec (c.row p session payload) s)
    ∧ (s.nreset = true → s.BusQuiet p → (s.cpi p).state = .executing →
        exec (c.row p session payload) s = .next (s.setCpi p { s.cpi p with bus := .free }))
    ∧ (s.nreset = true → (s.cpi p).bus = .writing ∨ (s.cpi p).bus = .writeRefused →
        ∃ t, exec (.frameTaken p) s = .next t ∧ (t.cpi p).bus = .free
          ∧ exec (c.row p session payload) s = exec (c.row p session payload) t)
    ∧ (s.nreset = true →
        (s.cpi p).bus = .readHeld ∨ (s.cpi p).bus = .readNone ∨ (∃ code, (s.cpi p).bus = .readPending code) →
        ∃ t, exec (.readEnd p 0) s = .next t ∧ (t.cpi p).bus = .free
          ∧ exec (c.row p session payload) s = exec (c.row p session payload) t)
    ∧ ((s.cpi p).bus = .stretching ∨ s.nreset = false → exec (c.row p session payload) s = .next s)

/-- The session checks of Table 6.2 and the supervisor-only check (R103, R164): a refusal carries no payload; a refusal by
the session checks does not restart the lease, one by the supervisor-only check does (R106). -/
def Obligations.CommonChecksRefuseInOrder : Prop :=
  ∀ (s : State) (p : Port) (c : Command) (session : Byte) (payload : List Byte), s.Ready p → payload.length ≤ 61 →
    (c ≠ .attach → c ≠ .status → c ≠ .readNotices →
      ((s.session p).state = .detached →
        exec (c.row p session payload) s = .next (s.withAnswer p .notAttached c.code []))
      ∧ ((s.session p).state = .lapsing →
        exec (c.row p session payload) s = .next (s.withAnswer p .lapsing c.code []))
      ∧ ((s.session p).state = .attached → session ≠ (s.session p).number →
        exec (c.row p session payload) s = .next (s.withAnswer p .staleSession c.code [])))
    ∧ ((s.session p).state = .lapsing →
      exec (.attach p session payload) s = .next (s.withAnswer p .lapsing 0x02 []))
    ∧ (s.InSession p session → s.supervisor ≠ some p →
      (c = .stageGuard ∨ c = .stageScan ∨ c = .evict ∨ c = .revoke) →
        exec (c.row p session payload) s = .next (s.withReply p .notSupervisor c.code []))

/-! ### STATUS, sessions -/

/-- STATUS answers its 15 bytes in every session state, whatever the session byte (R171, Table 11.3), with the codes of Table
11.5; with a payload it is refused BAD_ARG. The last part says what its counts count (R52, R71): the port's batches in the
queue, and the records of the pool that its Staged List and those batches hold. -/
def Obligations.StatusReportsThePort : Prop :=
  ∀ (s : State) (p : Port) (session : Byte), s.Ready p →
    exec (.status p session []) s
      = .next
        (s.withReplyInAnyState p .ok 0x01
          [if (s.cpi p).state = .holding then 1 else 0,
            match (s.session p).state with | .detached => 0 | .attached => 1 | .lapsing => 2,
            (s.session p).number,
            match (s.session p).role with | .none => 0 | .member => 1 | .supervisor => 2,
            (s.session p).interval, (s.session p).remaining, byteOf (s.staged p).list.length,
            byteOf ((s.staged p).check.toNat / 256), byteOf (s.staged p).check.toNat, byteOf (s.recordsInUse p),
            byteOf (s.portBatches p), byteOf s.poolFree, byteOf (8 - s.queue.length), s.timing.field,
            match s.timing.refState with | .free => 0 | .holdover => 1 | .locked => 2])
    ∧ (∀ payload : List Byte, payload ≠ [] → payload.length ≤ 61 →
      exec (.status p session payload) s = .next (s.withReplyInAnyState p .badArg 0x01 []))
    ∧ s.portBatches p = (s.queue.filter fun b : Batch => b.port == p).length
    ∧ s.recordsInUse p
        = (s.staged p).list.length + ((s.queue.filter fun b : Batch => b.port == p).map fun b => b.edits.length).sum
    ∧ s.poolUsed = s.recordsInUse 0 + s.recordsInUse 1 + s.recordsInUse 2 ∧ s.poolFree = 96 - s.poolUsed

/-- ATTACH taken (R104, R105, R102): a new session number, the role of the strap, the lease, which starts at once; the
Staged List, its check, the next batch number and the history start afresh. ATTACH refused, steps 1 to 3 of R104:
ATTACHED, or BAD_ARG for a session byte that is not 0, a wrong length, or a Member's lease of 0. -/
def Obligations.AttachBeginsASessionOrIsRefused : Prop :=
  (∀ (s : State) (p : Port) (lease : Byte), s.Ready p → (s.session p).state = .detached →
     (s.strapped ≠ some p → lease ≠ 0) →
     ∀ x : Session,
       x = { s.session p with
             state := .attached
             number := if (s.session p).number = 255 then 1 else (s.session p).number + 1
             role := if s.strapped = some p then .supervisor else .member
             interval := lease, remaining := lease } →
       exec (.attach p 0 [lease]) s
         = .next
           (((((s.setSession p x).setStaged p { list := [], check := 0xFFFF }).setNextBatch p 1).setHistory p []).withReply p
             .ok 0x02 [x.number, x.role.code, lease]))
  ∧ (∀ (s : State) (p : Port) (session : Byte) (payload : List Byte), s.Ready p → payload.length ≤ 61 →
       ((s.session p).state = .attached →
         exec (.attach p session payload) s
           = .next (s.withReply p .attached 0x02 [(s.session p).number, (s.session p).interval]))
       ∧ ((s.session p).state = .detached →
           (session ≠ 0 ∨ payload.length ≠ 1 ∨ (s.strapped ≠ some p ∧ payload = [0])) →
         exec (.attach p session payload) s = .next (s.withAnswer p .badArg 0x02 [])))

/-- DETACH (R108): straight to Detached when the port holds no claim and has no batch in the queue, else a lapse. R108 names
no value for the ended session's lease interval; that the entry keeps it is the model's choice (log entry 30). -/
def Obligations.DetachEndsTheSessionOrBeginsALapse : Prop :=
  ∀ (s : State) (p : Port) (session : Byte), s.Ready p → s.InSession p session →
    (((∀ q : Plane, s.planeOwner q ≠ some p) ∧ (∀ b : Bank, s.bankOwner b ≠ some p) ∧ ∀ b ∈ s.queue, b.port ≠ p) →
      exec (.detach p session []) s
        = .next
          (((s.setSession p { s.session p with state := .detached, remaining := 0 }).setStaged p
            { list := [], check := 0xFFFF }).withAnswer p .ok 0x03 [(s.session p).number, 0]))
    ∧ (((∃ q : Plane, s.planeOwner q = some p) ∨ (∃ b : Bank, s.bankOwner b = some p) ∨ ∃ b ∈ s.queue, b.port = p) →
      exec (.detach p session []) s
        = .next ((s.beginLapse p .detached).withAnswer p .ok 0x03 [(s.session p).number, 2]))
    ∧ ∀ payload : List Byte, payload ≠ [] → payload.length ≤ 61 →
      exec (.detach p session payload) s = .next (s.withReply p .badArg 0x03 [])

/-- EVICT from the supervisor (Table 6.3). -/
def Obligations.EvictBeginsALapse : Prop :=
  ∀ (s : State) (p q : Port) (session : Byte), s.Ready p → s.InSession p session → s.supervisor = some p →
    (q ≠ p → (s.session q).state = .attached →
      exec (.evict p session [byteOf q.val]) s
        = .next ((s.beginLapse q .evicted).withReply p .ok 0x04 [byteOf q.val, (s.session q).number]))
    ∧ (q ≠ p → (s.session q).state = .lapsing →
      exec (.evict p session [byteOf q.val]) s
        = .next
          (s.withReply p .alreadyLapsing 0x04 [byteOf q.val, (s.session q).number, (s.session q).cause.code]))
    ∧ (q ≠ p → (s.session q).state = .detached →
      exec (.evict p session [byteOf q.val]) s = .next (s.withReply p .notAttached 0x04 []))
    ∧ exec (.evict p session [byteOf p.val]) s = .next (s.withReply p .badArg 0x04 [])
    ∧ ∀ payload : List Byte, payload.length ≤ 61 → (∀ r : Port, payload ≠ [byteOf r.val]) →
      exec (.evict p session payload) s = .next (s.withReply p .badArg 0x04 [])

/-- The six parts of a lapse's beginning as one event (R110, R98, R66): the session, the Staged List, the purge with its
history entries (of which the last 8 are kept, R77), the Lapse Set, the lease; and the command in flight, which ends with
SESSION_ENDING (R111) unless its own last Field Start or countdown was taken before (log entry 11). -/
def Obligations.BeginningOfALapseIsOneEvent : Prop :=
  ∀ (s : State) (p : Port) (cause : LapseCause), (s.history p).length ≤ 8 →
    let purged := s.queue.filter fun b : Batch => b.port == p && b.state == .queued
    let t := s.beginLapse p cause
    t.session p =
        { s.session p with state := .lapsing, cause, purged := purged.length, inLapseSet := true, remaining := 0 }
    ∧ (∀ q, q ≠ p → t.session q = s.session q ∧ t.cpi q = s.cpi q ∧ t.staged q = s.staged q ∧ t.history q = s.history q)
    ∧ t.staged p = { list := [], check := 0xFFFF }
    ∧ t.queue =
        (s.queue.filter fun b : Batch => !(b.port == p && b.state == .queued)).map
          (fun b : Batch => if b.port = p then { b with wait := false } else b)
    ∧ (∀ kept : List HistoryEntry,
        kept = s.history p
          ++ purged.map (fun b : Batch => { number := b.number, outcome := .purged, field := s.timing.field }) →
        t.history p = kept.drop (kept.length - 8))
    ∧ ((s.cpi p).state ≠ .executing → t.cpi p = s.cpi p)
    ∧ (∀ w, (s.cpi p).state = .executing → s.timing.waiters[p] = some w →
        t.timing.waiters[p] = none
        ∧ t.cpi p =
            match w.due with
            | none => (s.cpi p).completed .sessionEnding []
            | some field => (s.cpi p).completed .ok [field])
    ∧ (∀ l b r, (s.cpi p).state = .executing → s.timing.waiters[p] = none → s.queue = l ++ b :: r →
        (∀ x ∈ l, x.port = p → x.wait = false) → b.port = p → b.wait = true →
        t.cpi p =
          match b.timedOut with
          | none => (s.cpi p).completed .sessionEnding (b.number :: be16 b.cost ++ targetBytes b.target)
          | some field => (s.cpi p).completed .timeout (b.number :: be16 b.cost ++ targetBytes b.target ++ [field]))
    ∧ (∀ q, q ≠ p → t.timing.waiters[q] = s.timing.waiters[q])
    ∧ t = { s with
        sessions := t.sessions, staging := t.staging, queue := t.queue, histories := t.histories, cpis := t.cpis
        timing := { s.timing with waiters := t.timing.waiters } }

/-- The arrival of a completion (R165, R106): the response with the in-flight code, LOST by the lost mark; a stretched read
is answered with it (R168); pending-given is kept; the lease restarts if the port is Attached. -/
def Obligations.CompletionArrivesAtItsPort : Prop :=
  ∀ (s : State) (p : Port) (k : Completion) (code : Byte) (payload : List Byte),
    (s.cpi p).state = .executing → (s.cpi p).inFlight = some code →
    let t := s.complete p k payload
    t.cpi p =
        { s.cpi p with
          state := .holding, slot := some { completion := k, lost := (s.cpi p).lostMark, code, payload }
          inFlight := none, lostMark := false
          bus := if (s.cpi p).bus = .stretching then .readHeld else (s.cpi p).bus }
    ∧ t.session p =
        (if (s.session p).state = .attached then { s.session p with remaining := (s.session p).interval } else s.session p)
    ∧ (∀ q, q ≠ p → t.cpi q = s.cpi q ∧ t.session q = s.session q)
    ∧ t = { s with cpis := t.cpis, sessions := t.sessions }

/-! ### Claims -/

/-- CLAIM of a named plane or bank (R119, R120). A bank's guarded byte is 0 by log entry 16. The last part writes the kind and
number bytes out (Table 11.5). -/
def Obligations.ClaimTakesAFreeResource : Prop :=
  ∀ (s : State) (p : Port) (session : Byte) (r : Resource), s.Ready p → s.InSession p session →
    (s.claimOf r = .free →
      exec (.claim p session r.bytes) s
        = .next
          ((s.setClaim r (.held p)).withReply p .ok 0x05
            (r.bytes ++ [match r with | .plane q => flagByte (s.live.isGuarded q) | .bank _ => 0])))
    ∧ (∀ q, s.claimOf r = .held q →
      exec (.claim p session r.bytes) s = .next (s.withReply p .owned 0x05 [byteOf q.val, 1]))
    ∧ (∀ q, s.claimOf r = .revoking q →
      exec (.claim p session r.bytes) s = .next (s.withReply p .owned 0x05 [byteOf q.val, 2]))
    ∧ (∀ payload : List Byte, payload.length ≤ 61 → (∀ x : Resource, payload ≠ x.bytes) → (∀ n, payload ≠ [2, n]) →
      exec (.claim p session payload) s = .next (s.withReply p .badArg 0x05 []))
    ∧ (∀ q : Plane, (Resource.plane q).bytes = [0, byteOf q.val]) ∧ (∀ b : Bank, (Resource.bank b).bytes = [1, byteOf b.val])
    ∧ flagByte true = 1 ∧ flagByte false = 0

/-- CLAIM ANY-PLANE takes the lowest-numbered plane that is Free and not guarded (R121); the number byte is ignored (R119). -/
def Obligations.ClaimAnyPlaneTakesTheLowest : Prop :=
  ∀ (s : State) (p : Port) (session number : Byte), s.Ready p → s.InSession p session →
    exec (.claim p session [2, number]) s = exec (.claimAnyPlane p session number) s
    ∧ (∀ q : Plane, s.claimOf (.plane q) = .free → s.live.isGuarded q = false →
        (∀ q' : Plane, q' < q → s.claimOf (.plane q') ≠ .free ∨ s.live.isGuarded q' = true) →
      exec (.claimAnyPlane p session number) s
        = .next ((s.setClaim (.plane q) (.held p)).withReply p .ok 0x05 [0, byteOf q.val, 0]))
    ∧ ((∀ q : Plane, s.claimOf (.plane q) ≠ .free ∨ s.live.isGuarded q = true) →
      exec (.claimAnyPlane p session number) s = .next (s.withReply p .noneFree 0x05 []))

/-- RELEASE (Table 7.3, R124 to R128): one that passes its checks frees the entry and disarms a plane's guard; a refused one
changes nothing, the checks tried in the order of Table 7.3 and the causes in that of R126 and R127. That a plane which
stands enabled is ENABLED also while the batch that disables it is Applying is the model's reading (log entry 31): R126's
list gives ENABLED first, and a sentence of it says that such a batch is reported as QUEUED. The last part says which
edits touch a plane or bank (R87) and which name a bank (R127). -/
def Obligations.ReleaseIsJudgedInTheOrderOfItsTable : Prop :=
  (∀ (s : State) (p : Port) (session : Byte), s.Ready p → s.InSession p session →
     (∀ q : Plane, s.claimOf (.plane q) = .held p → s.live.planes[q].enabled = false →
         (∀ e ∈ (s.staged p).list, e.touched ≠ some (.plane q)) →
         (∀ b ∈ s.queue, b.port = p → ∀ e ∈ b.edits, e.touched ≠ some (.plane q)) →
       exec (.release p session [0, byteOf q.val]) s
         = .next
           ({ s.setClaim (.plane q) .free with
               live :=
                 { s.live with
                   guards := s.live.guards.set q
                     (s.live.guards[q].map fun r : GuardRecord => { r with expected := none, held := false, changed := true }) }
             }.withReply p .ok 0x06 [0, byteOf q.val]))
     ∧ (∀ b : Bank, s.claimOf (.bank b) = .held p →
         (∀ q : Plane, s.planeOwner q = some p → s.live.planes[q].palette ≠ some b) →
         (∀ e ∈ (s.staged p).list, e.namesBank b = false) →
         (∀ x ∈ s.queue, x.port = p → ∀ e ∈ x.edits, e.namesBank b = false) →
       exec (.release p session [1, byteOf b.val]) s
         = .next ((s.setClaim (.bank b) .free).withReply p .ok 0x06 [1, byteOf b.val])))
  ∧ (∀ (s : State) (p : Port) (session : Byte) (r : Resource), s.Ready p → s.InSession p session →
       (s.claimOf r = .free →
         exec (.release p session r.bytes) s = .next (s.withReply p .notOwner 0x06 [0xFF]))
       ∧ (∀ q, q ≠ p → s.claimOf r = .held q ∨ s.claimOf r = .revoking q →
         exec (.release p session r.bytes) s = .next (s.withReply p .notOwner 0x06 [byteOf q.val]))
       ∧ (s.claimOf r = .revoking p → exec (.release p session r.bytes) s = .next (s.withReply p .revoking 0x06 []))
       ∧ (∀ cause : Byte, s.claimOf r = .held p →
           (match r with
             | .plane q =>
               (cause = 1 ∧ s.live.planes[q].enabled = true)
               ∨ (s.live.planes[q].enabled = false
                 ∧ ((cause = 2 ∧ ∃ e ∈ (s.staged p).list, e.touched = some (.plane q))
                   ∨ (cause = 3 ∧ (∀ e ∈ (s.staged p).list, e.touched ≠ some (.plane q))
                     ∧ ∃ x ∈ s.queue, x.port = p ∧ ∃ e ∈ x.edits, e.touched = some (.plane q))))
             | .bank b =>
               (cause = 4 ∧ ∃ q : Plane, s.planeOwner q = some p ∧ s.live.planes[q].palette = some b)
               ∨ ((∀ q : Plane, s.planeOwner q = some p → s.live.planes[q].palette ≠ some b)
                 ∧ ((cause = 2 ∧ ∃ e ∈ (s.staged p).list, e.namesBank b = true)
                   ∨ (cause = 3 ∧ (∀ e ∈ (s.staged p).list, e.namesBank b = false)
                     ∧ ∃ x ∈ s.queue, x.port = p ∧ ∃ e ∈ x.edits, e.namesBank b = true)))) →
         exec (.release p session r.bytes) s = .next (s.withReply p .inUse 0x06 [cause]))
       ∧ ∀ payload : List Byte, payload.length ≤ 61 → (∀ x : Resource, payload ≠ x.bytes) →
         exec (.release p session payload) s = .next (s.withReply p .badArg 0x06 []))
  ∧ ∀ e : Edit,
      e.touched =
          (match e with
            | .plane x => some (.plane x.plane)
            | .colours b _ _ => some (.bank b)
            | .order q _ => some (.plane q)
            | .signature q _ _ _ => some (.plane q)
            | .guard _ _ => none
            | .scan _ => none)
      ∧ ∀ b : Bank, e.namesBank b = true ↔
          (∃ first cs, e = .colours b first cs) ∨ ∃ x : PlaneEdit, e = .plane x ∧ x.palette = some (some b)

/-- REVOKE from the supervisor (R129, Table 7.4). -/
def Obligations.RevokeMarksAClaim : Prop :=
  ∀ (s : State) (p : Port) (session : Byte) (r : Resource), s.Ready p → s.InSession p session → s.supervisor = some p →
    (s.claimOf r = .free → exec (.revoke p session r.bytes) s = .next (s.withReply p .notHeld 0x07 []))
    ∧ (∀ q, s.claimOf r = .held q →
      exec (.revoke p session r.bytes) s
        = .next ((s.setClaim r (.revoking q)).withReply p .ok 0x07 [byteOf q.val, 0]))
    ∧ (∀ q, s.claimOf r = .revoking q →
      exec (.revoke p session r.bytes) s = .next (s.withReply p .ok 0x07 [byteOf q.val, 1]))
    ∧ ∀ payload : List Byte, payload.length ≤ 61 → (∀ x : Resource, payload ≠ x.bytes) →
      exec (.revoke p session payload) s = .next (s.withReply p .badArg 0x07 [])

/-! ### Staging and sealing -/

/-- STAGE_PLANE, STAGE_COLOURS, STAGE_ORDER, STAGE_SIGNATURE, STAGE_GUARD, STAGE_SCAN, with the codes 0x10 to 0x15: every edit
whose fields are in range (R56 to R60), written by Tables 11.1, 11.2 and 11.5 with any value in the bytes the part ignores,
is appended exactly as it was written (R61, R63). Each byte of its payload is folded into the check, which is rotated left
by one and XORed with the byte in its lowest eight bits (R64). The answer carries the staged count, the staged cost by Table
4.1 and the check. So no bit of a STAGE frame is dropped. The second part writes the payloads out byte by byte, and the
third says that the costs, checks, reports and codes the other statements name are these. -/
def Obligations.StageAppendsTheEditItsFrameCarries : Prop :=
  let two : Nat → List Byte := fun n => [byteOf (n / 256), byteOf n]
  let flag : Bool → Byte := fun b => if b then 1 else 0
  let rgb : Colour → List Byte := fun c => [c.r, c.g, c.b]
  let fold : BitVec 16 → Byte → BitVec 16 := fun check byte => check.rotateLeft 1 ^^^ byte.setWidth 16
  let cost : Edit → Nat := fun e =>
    match e with
    | .plane _ => 2 | .colours _ _ cs => cs.length | .order _ _ => 2 | .signature _ _ _ _ => 1 | .guard _ _ => 2 | .scan _ => 8
  let code : Edit → Byte := fun e =>
    match e with
    | .plane _ => 0x10 | .colours _ _ _ => 0x11 | .order _ _ => 0x12 | .signature _ _ _ _ => 0x13 | .guard _ _ => 0x14
    | .scan _ => 0x15
  (∀ (s : State) (p : Port) (session : Byte) (ignored : BitVec 32) (e : Edit), s.Ready p → s.InSession p session → e.wf →
     s.MayStage p e → s.poolUsed < 96 → s.recordsInUse p < 48 →
     let payload := e.payload ignored
     let row : Instr :=
       match e with
       | .plane _ => .stagePlane p session payload
       | .colours _ _ _ => .stageColours p session payload
       | .order _ _ => .stageOrder p session payload
       | .signature _ _ _ _ => .stageSignature p session payload
       | .guard _ _ => .stageGuard p session payload
       | .scan _ => .stageScan p session payload
     let list := (s.staged p).list ++ [e]
     let check := payload.foldl fold (s.staged p).check
     exec row s
       = .next
         ((s.setStaged p { list, check }).withReply p .ok (code e)
           (byteOf list.length :: two (list.map cost).sum ++ two check.toNat)))
  ∧ (∀ (ignored : BitVec 32) (e : Edit),
       e.payload ignored =
         match e with
         | .plane x =>
           [byteOf x.plane.val,
               (if x.enabled.isSome then 1 else 0) + (if x.rect.isSome then 2 else 0) + (if x.source.isSome then 4 else 0)
                 + (if x.fill.isSome then 8 else 0) + (if x.palette.isSome then 16 else 0)
                 + (if x.mode.isSome then 32 else 0)]
             ++ (x.enabled.elim [] fun b => [flag b])
             ++ (x.rect.elim [] fun r => two r.x0.val ++ two r.y0.val ++ two r.x1.val ++ two r.y1.val)
             ++ (x.source.elim [] fun c => [match c with | .fill => 0 | .streamA => 1 | .streamB => 2])
             ++ x.fill.elim [] rgb
             ++ (x.palette.elim [] fun o => [match o with | none => 0xFF | some b => byteOf b.val])
             ++ (x.mode.elim [] fun m =>
                 match m with | .opaqueMode => [0] | .keyed key => 1 :: rgb key | .blended alpha => [2, byteOf alpha.val])
         | .colours bank first cs => [byteOf bank.val, byteOf first, byteOf cs.length, 0] ++ cs.flatMap rgb
         | .order q form =>
           byteOf q.val ::
             (match form with
               | .top => [0, ignored.setWidth 8]
               | .bottom => [1, ignored.setWidth 8]
               | .above o => [2, byteOf o.val]
               | .below o => [3, byteOf o.val])
         | .signature q expected limit action =>
           let v := (expected.getD ignored).toNat
           [byteOf q.val, flag expected.isSome] ++ two (v / 65536) ++ two v
             ++ [byteOf limit, match action with | .notify => 0 | .substitute => 1]
         | .guard q set => [byteOf q.val, flag set]
         | .scan x =>
           [(if x.width.isSome then 1 else 0) + (if x.height.isSome then 2 else 0) + (if x.hblank.isSome then 4 else 0)
               + (if x.vblank.isSome then 8 else 0) + (if x.follow.isSome then 16 else 0)
               + (if x.lossMargin.isSome then 32 else 0) + (if x.background.isSome then 64 else 0)
               + (if x.format.isSome then 128 else 0)]
             ++ x.width.elim [] two ++ x.height.elim [] two ++ x.hblank.elim [] two
             ++ (x.vblank.elim [] fun n => [byteOf n]) ++ (x.follow.elim [] fun b => [flag b])
             ++ (x.lossMargin.elim [] fun n => [byteOf n]) ++ x.background.elim [] rgb
             ++ (x.format.elim [] fun f => [match f with | .direct => 0 | .indexed => 1]))
  ∧ (∀ e : Edit, e.command.code = code e) ∧ (∀ list : List Edit, editsCost list = (list.map cost).sum)
  ∧ (∀ (check : BitVec 16) (bytes : List Byte), foldChecks check bytes = bytes.foldl fold check)
  ∧ ∀ (list : List Edit) (check : BitVec 16),
      stageReport list check = byteOf list.length :: two (list.map cost).sum ++ two check.toNat

/-- A refused STAGE frame keeps the Staged List and the check, and reports them as they stand (R61). The checks of Table 4.2
in their order: BAD_ARG for a payload whose length is not that of its kind, whatever the claims; NOT_OWNER for a plane or
bank that the port does not hold; NOT_GUARDED for a SIGNATURE of a plane that is not guarded; BAD_ARG for every payload
that no edit in range of the kind gives (R56 to R60: a plane or bank number, a mask, a reserved byte, any field out of
range); POOL_FULL and PORT_CAP for an edit in range. -/
def Obligations.RefusedStageKeepsTheList : Prop :=
  ∀ (s : State) (p : Port) (session : Byte), s.Ready p → s.InSession p session →
    let report := stageReport (s.staged p).list (s.staged p).check
    (∀ (c : Command) (payload : List Byte), payload.length ≤ 61 →
        c ∈ [Command.stagePlane, .stageColours, .stageOrder, .stageSignature, .stageGuard, .stageScan] →
        (c = .stageGuard ∨ c = .stageScan → s.supervisor = some p) →
        let named := fun r : Resource =>
          match r with
          | .plane q =>
            (c = .stagePlane ∨ c = .stageOrder ∨ c = .stageSignature) ∧ payload.head? = some (byteOf q.val)
          | .bank b => c = .stageColours ∧ payload.head? = some (byteOf b.val)
        let refused := fun k : Completion =>
          exec (c.row p session payload) s = .next (s.withReply p k c.code report)
        (c.lengthFits payload = false → refused .badArg)
        ∧ (∀ r, c.lengthFits payload = true → named r → s.claimOf r ≠ .held p → refused .notOwner)
        ∧ (∀ q, c = .stageSignature → c.lengthFits payload = true → named (.plane q) → s.claimOf (.plane q) = .held p →
            s.live.isGuarded q = false → refused .notGuarded)
        ∧ ((∀ r, named r → s.claimOf r = .held p) →
            (c = .stageSignature → ∀ q, named (.plane q) → s.live.isGuarded q = true) →
            (∀ (e : Edit) (ignored : BitVec 32), e.wf → e.command = c → payload ≠ e.payload ignored) →
            refused .badArg))
    ∧ ∀ (e : Edit) (ignored : BitVec 32), e.wf → s.MayStage p e →
      (96 ≤ s.poolUsed →
        exec (e.command.row p session (e.payload ignored)) s = .next (s.withReply p .poolFull e.command.code report))
      ∧ (s.poolUsed < 96 → 48 ≤ s.recordsInUse p →
        exec (e.command.row p session (e.payload ignored)) s = .next (s.withReply p .portCap e.command.code report))

/-- DISCARD (R65): the list is empty, the check is 0xFFFF, the records are returned, the batches in the queue are not
touched, and the answer carries the number of edits discarded. It needs an Attached session with a matching session number;
with a payload it is refused BAD_ARG. -/
def Obligations.DiscardEmptiesTheStagedList : Prop :=
  ∀ (s : State) (p : Port) (session : Byte), s.Ready p →
    (s.InSession p session →
      exec (.discard p session []) s
        = .next
          ((s.setStaged p { list := [], check := 0xFFFF }).withReply p .ok 0x18 [byteOf (s.staged p).list.length])
      ∧ (s.setStaged p { list := [], check := 0xFFFF }).recordsInUse p + (s.staged p).list.length = s.recordsInUse p
      ∧ ∀ payload : List Byte, payload ≠ [] → payload.length ≤ 61 →
        exec (.discard p session payload) s = .next (s.withReply p .badArg 0x18 []))
    ∧ (¬ s.InSession p session →
      exec (.discard p session []) s
        = .next
          (s.withAnswer p
            (match (s.session p).state with
              | .detached => .notAttached
              | .lapsing => .lapsing
              | .attached => .staleSession)
            0x18 []))

/-- SEAL judged in the order of Table 4.3 (R68), with the target rule of R70, the room of R71 and the batch of R72; arguments
that do not decode are refused BAD_ARG (R67). The last line writes its arguments out by Tables 11.1 and 11.5. -/
def Obligations.SealIsJudgedInTheOrderOfItsTable : Prop :=
  (∀ (s : State) (p : Port) (session : Byte) (payload : List Byte), s.Ready p → s.InSession p session →
     payload.length ≤ 61 → (∀ count check target ignored wait, payload ≠ sealPayload count check target ignored wait) →
     exec (.seal p session payload) s = .next (s.withReply p .badArg 0x19 []))
  ∧ ∀ (s : State) (p : Port) (session : Byte) (count : Byte) (check : BitVec 16) (target : Option Byte) (ignored : Byte)
    (wait : Bool), s.Ready p → s.InSession p session →
    let list := (s.staged p).list
    let budget := 64 * (s.live.scan.vblank - 1)
    let emptied := s.setStaged p { list := [], check := 0xFFFF }
    let found := byteOf list.length :: be16 (s.staged p).check.toNat
    let number := s.nextBatch[p]
    let sealed : State :=
      { emptied.setNextBatch p (if number = 255 then 1 else number + 1) with
        queue := s.queue ++
          [{ port := p, session := (s.session p).number, number, edits := list, cost := editsCost list, target, wait,
             remainingWait := 32, state := .queued, member := false, reached := false, scanned := false,
             timedOut := none }] }
    exec (.seal p session (sealPayload count check target ignored wait)) s
      = .next
        (if list = [] then s.withReply p .nothingStaged 0x19 []
        else if count.toNat ≠ list.length then emptied.withReply p .countMismatch 0x19 found
        else if check ≠ (s.staged p).check then emptied.withReply p .badCheck 0x19 found
        else if budget < editsCost list then
          emptied.withReply p .tooLarge 0x19 (be16 (editsCost list) ++ be16 budget)
        else if target.any (fun n => decide (120 < (n - s.timing.field).toNat)) then
          s.withReply p .badTarget 0x19 [s.timing.field]
        else if 8 ≤ s.queue.length ∨ 4 ≤ s.portBatches p then
          s.withReply p .queueFull 0x19 [byteOf s.queue.length, byteOf (s.portBatches p)]
        else if wait then sealed.withLaunch p 0x19
        else sealed.withReply p .ok 0x19 (number :: be16 (editsCost list) ++ targetBytes target))
      ∧ sealPayload count check target ignored wait
        = [count, byteOf (check.toNat / 256), byteOf check.toNat]
          ++ (match target with | none => [0, ignored] | some n => [1, n]) ++ [if wait then 1 else 0]

/-! ### WITHDRAW, WAIT_FIELD, READ_NOTICES, queries -/

/-- WITHDRAW (Table 5.4). The reason and edit index bytes of an outcome other than rejected are free values (log entry 15),
and hold for every value of them. The clamped byte of a withdrawn or purged outcome is 0 by log entry 16. The spec does not
tell two batches in the queue with the number apart, nor two history entries: of the batches the one nearer the head is
meant (log entry 33), of the entries the oldest answers (log entry 26). A history that takes an entry keeps the last 8
(R77). -/
def Obligations.WithdrawFindsTheBatchOrItsOutcome : Prop :=
  ∀ (s : State) (p : Port) (session n : Byte), s.Ready p → s.InSession p session →
    let named := fun b : Batch => b.port = p ∧ b.session = (s.session p).number ∧ b.number = n
    exec (.withdraw p session [0]) s = .next (s.withReply p .badArg 0x1A [])
    ∧ (∀ payload : List Byte, payload.length ≤ 61 → payload.length ≠ 1 →
      exec (.withdraw p session payload) s = .next (s.withReply p .badArg 0x1A []))
    ∧ (n ≠ 0 → ∀ l b r, s.queue = l ++ b :: r → (∀ x ∈ l, ¬ named x) → named b →
        (b.state = .queued →
          exec (.withdraw p session [n]) s
            = .next
              (({ s with queue := l ++ r }.setHistory p
                (pushHistory (s.history p) { number := n, outcome := .withdrawn, field := s.timing.field })).withReply p .ok
                  0x1A (n :: be16 b.cost ++ targetBytes b.target)))
        ∧ (b.state = .applying →
          exec (.withdraw p session [n]) s = .next (s.withReply p .tooLate 0x1A [n, 5, 0, 0, 0, 0])))
    ∧ (n ≠ 0 → (∀ b ∈ s.queue, ¬ named b) →
        (∀ l e r, s.history p = l ++ e :: r → (∀ x ∈ l, x.number ≠ n) → e.number = n →
          ∃ u v k, exec (.withdraw p session [n]) s
            = .next
              ({ s with freeIndex := k }.withReply p .tooLate 0x1A
                (match e.outcome with
                  | .applied clamped => [n, 1, u, v, flagByte clamped, e.field]
                  | .rejected reason index => [n, 2, reason.code, byteOf index, 0, e.field]
                  | .withdrawn => [n, 3, u, v, 0, e.field]
                  | .purged => [n, 4, u, v, 0, e.field])))
        ∧ ((∀ e ∈ s.history p, e.number ≠ n) →
          exec (.withdraw p session [n]) s = .next (s.withReply p .noSuchBatch 0x1A [])))
    ∧ ∀ (h : List HistoryEntry) (e : HistoryEntry), h.length ≤ 8 →
        pushHistory h e = (h ++ [e]).drop ((h ++ [e]).length - 8)

/-- WAIT_FIELD (R49): a count of 1..16 becomes the port's waiter and the port is Executing; any other is refused BAD_ARG. -/
def Obligations.WaitFieldBecomesAWaiter : Prop :=
  ∀ (s : State) (p : Port) (session k : Byte), s.Ready p → s.InSession p session →
    (1 ≤ k.toNat → k.toNat ≤ 16 →
      exec (.waitField p session [k]) s
        = .next ((s.setWaiter p (some { remaining := k.toNat, due := none })).withLaunch p 0x20))
    ∧ (k.toNat = 0 ∨ 16 < k.toNat →
      exec (.waitField p session [k]) s = .next (s.withReply p .badArg 0x20 []))
    ∧ ∀ payload : List Byte, payload.length ≤ 61 → payload.length ≠ 1 →
      exec (.waitField p session payload) s = .next (s.withReply p .badArg 0x20 [])

/-- READ_NOTICES (R155), in every session state and whatever the session byte: up to 7 of the oldest records, each as the 8
bytes of R176 with the kinds of Table 11.6, and the dropped count, which is cleared; with a payload it is refused BAD_ARG
and nothing is removed. The codes that the details carry: lapse causes and actions by Table 11.5, reasons by Table 11.4. -/
def Obligations.ReadNoticesDeliversTheOldest : Prop :=
  (∀ (s : State) (p : Port) (session : Byte), s.Ready p →
     let q := s.noticeQueue p
     let kind : NoticeKind → Byte := fun k =>
       match k with
       | .batchApplied => 0x01 | .batchRejected => 0x02 | .sessionEnded => 0x03 | .portLapsed => 0x04
       | .claimRevoked => 0x05 | .scanChanged => 0x06 | .referenceLost => 0x07 | .referenceFound => 0x08
       | .streamFault => 0x09 | .signatureMismatch => 0x0A | .signatureLimit => 0x0B
     let bytes : Notice → List Byte := fun n =>
       [kind n.kind, n.field, match n.subject with | none => 0xFF | some k => byteOf k.val,
         match n.batch with | none => 0 | some b => b,
         match n.resource with
           | none => 0xFF
           | some (.plane x) => byteOf x.val
           | some (.bank b) => byteOf (0x80 + b.val),
         n.d0, n.d1, n.d2]
     exec (.readNotices p session []) s
       = .next
         ((s.setNotices p { records := q.records.drop 7, dropped := 0 }).withReplyInAnyState p .ok 0x21
           ([byteOf (min 7 q.records.length), byteOf q.dropped] ++ (q.records.take 7).flatMap bytes))
     ∧ ∀ payload : List Byte, payload ≠ [] → payload.length ≤ 61 →
       exec (.readNotices p session payload) s = .next (s.withReplyInAnyState p .badArg 0x21 []))
  ∧ [LapseCause.none, .expired, .detached, .evicted].map LapseCause.code = [0, 1, 2, 3]
  ∧ [GuardAction.notify, .substitute].map GuardAction.code = [0, 1]
  ∧ [Reason.notOwner, .badRect, .bankNotHeld, .guardFull, .notGuarded, .tooLarge].map Reason.code
      = [0x22, 0x39, 0x3A, 0x3B, 0x38, 0x33]

/-- QUERY_PLANE (R21), QUERY_ORDER (R22), QUERY_COLOURS (R31), QUERY_SCAN (R51), QUERY_GUARD (R149): what each reads of the
live state, byte by byte as Tables 11.2 and 11.3 lay it out, with the 13-byte Scan blocks and the flags byte of a guard
entry, whose bit 7 is 0 by log entry 34; each changes nothing, and is refused BAD_ARG for arguments out of range. -/
def Obligations.QueriesReadTheLiveState : Prop :=
  (∀ (s : State) (p : Port) (session : Byte), s.Ready p → s.InSession p session →
     let portOrNone : Option Port → Byte := fun o => match o with | none => 0xFF | some k => byteOf k.val
     let flag : Bool → Byte := fun b => if b then 1 else 0
     let two : Nat → List Byte := fun n => [byteOf (n / 256), byteOf n]
     let scanBlock : ScanRecord → List Byte := fun r =>
       two r.width ++ two r.height ++ two r.hblank
         ++ [byteOf r.vblank, flag r.follow, byteOf r.lossMargin, r.background.r, r.background.g, r.background.b,
             match r.format with | .direct => 0 | .indexed => 1]
     (∀ q : Plane,
       let r := s.live.planes[q]
       exec (.queryPlane p session [byteOf q.val]) s
         = .next
           (s.withReply p .ok 0x30
             ([byteOf q.val, portOrNone (s.planeOwner q), flag r.enabled]
               ++ two r.rect.x0.val ++ two r.rect.y0.val ++ two r.rect.x1.val ++ two r.rect.y1.val
               ++ [match r.source with | .fill => 0 | .streamA => 1 | .streamB => 2, r.fill.r, r.fill.g, r.fill.b,
                   match r.palette with | none => 0xFF | some b => byteOf b.val]
               ++ (match r.mode with
                   | .opaqueMode => [0, 0, 0, 0]
                   | .keyed key => [1, key.r, key.g, key.b]
                   | .blended alpha => [2, byteOf alpha.val, 0, 0])
               ++ [flag (s.live.isGuarded q), flag (s.live.isHeld q), byteOf (s.live.order.idxOf q)])))
     ∧ exec (.queryOrder p session []) s
         = .next
           (s.withReply p .ok 0x31 (s.live.order.map (fun q => byteOf q.val) ++ [byteOf s.live.guardCount]))
     ∧ (∀ (b : Bank) (first count : Byte), 1 ≤ count.toNat → count.toNat ≤ 16 → first.toNat + count.toNat ≤ 256 →
       exec (.queryColours p session [byteOf b.val, first, count]) s
         = .next
           (s.withReply p .ok 0x32
             ([byteOf b.val, first, count, portOrNone (s.bankOwner b)]
               ++ (List.range count.toNat).flatMap fun i =>
                   [(bankEntry s.live.palette b (first.toNat + i)).r, (bankEntry s.live.palette b (first.toNat + i)).g,
                     (bankEntry s.live.palette b (first.toNat + i)).b])))
     ∧ exec (.queryScan p session []) s
         = .next
           (s.withReply p .ok 0x33
             (scanBlock s.live.scan ++ [flag s.live.pendingMark] ++ scanBlock s.live.pendingScan
               ++ [match s.timing.refState with | .free => 0 | .holdover => 1 | .locked => 2, flag s.timing.pendingRef,
                   s.timing.field]
               ++ two s.timing.lastBlanking))
     ∧ exec (.queryGuard p session []) s
         = .next
           (s.withReply p .ok 0x34
             (byteOf s.live.guardCount ::
               s.live.order.flatMap fun q =>
                 match s.live.guards[q] with
                 | none => []
                 | some r =>
                   [byteOf q.val, portOrNone (s.planeOwner q),
                     (if s.live.planes[q].enabled then 1 else 0) + (if r.expected.isSome then 2 else 0)
                       + (if r.held then 4 else 0) + (if r.lastSignature.isSome then 8 else 0)
                       + (if r.action = .substitute then 16 else 0)
                       + (match r.lastResult with | .notCompared => 0 | .isMatch => 32 | .mismatch => 64)]
                     ++ two ((r.expected.getD 0).toNat / 65536) ++ two (r.expected.getD 0).toNat
                     ++ [byteOf r.limit, byteOf r.runCount]
                     ++ two ((r.lastSignature.getD 0).toNat / 65536) ++ two (r.lastSignature.getD 0).toNat)))
  ∧ (∀ (s : State) (p : Port) (session : Byte), s.Ready p → s.InSession p session →
       (∀ n : Byte, 16 ≤ n.toNat → exec (.queryPlane p session [n]) s = .next (s.withReply p .badArg 0x30 []))
       ∧ (∀ b first count : Byte,
           4 ≤ b.toNat ∨ count.toNat = 0 ∨ 16 < count.toNat ∨ 256 < first.toNat + count.toNat →
         exec (.queryColours p session [b, first, count]) s = .next (s.withReply p .badArg 0x32 []))
       ∧ (∀ payload : List Byte, payload.length ≤ 61 →
         (payload.length ≠ 1 → exec (.queryPlane p session payload) s = .next (s.withReply p .badArg 0x30 []))
         ∧ (payload.length ≠ 3 → exec (.queryColours p session payload) s = .next (s.withReply p .badArg 0x32 [])))
       ∧ ∀ payload : List Byte, payload ≠ [] → payload.length ≤ 61 →
         exec (.queryOrder p session payload) s = .next (s.withReply p .badArg 0x31 [])
         ∧ exec (.queryScan p session payload) s = .next (s.withReply p .badArg 0x33 [])
         ∧ exec (.queryGuard p session payload) s = .next (s.withReply p .badArg 0x34 []))

/-! ### The bus -/

/-- A write address byte with the data bytes after it (R159, R161): acknowledged in Idle and Holding, where 64 bytes are kept
and one more sets the LONG mark; not acknowledged in Executing; another address leaves the port as it stands, as does every
one while NRESET is low (R172). With no transaction of the port open it hears a START and a repeated START; but a port that
ignores the bus after an abandonment or a device reset hears a START alone, to whatever address, and then listens again
(R169, R172). An address byte that comes while a transaction is still open ends that one first, and a stretched read lets
none through (R159, R162, R166; log entry 7). -/
def Obligations.WriteAddressMatchFillsTheBuffer : Prop :=
  (∀ (s : State) (p : Port) (kind : StartKind) (data : List Byte), s.nreset = true → s.Hears p kind →
     let own : Byte := byteOf (((if s.addrsel then 0x4C else 0x2C) + p.val) * 2)
     ((s.cpi p).state = .idle →
       exec (.writeAddressMatch p ⟨kind, own⟩ data) s
         = .next
           (s.setCpi p
             { s.cpi p with
               state := .receiving, prior := .idle, buffer := data.take 64, long := decide (64 < data.length)
               bus := .writing }))
     ∧ ((s.cpi p).state = .holding →
       exec (.writeAddressMatch p ⟨kind, own⟩ data) s
         = .next
           (s.setCpi p
             { s.cpi p with
               state := .receiving, prior := .holding, buffer := data.take 64, long := decide (64 < data.length)
               bus := .writing }))
     ∧ ((s.cpi p).state = .executing →
       exec (.writeAddressMatch p ⟨kind, own⟩ data) s = .next (s.setCpi p { s.cpi p with bus := .writeRefused }))
     ∧ (∀ address, address ≠ own →
       exec (.writeAddressMatch p ⟨kind, address⟩ data) s = .next (s.setCpi p { s.cpi p with bus := .free })))
  ∧ (∀ (s : State) (p : Port) (address : AddressByte) (data : List Byte),
       s.nreset = false ∨ ((s.cpi p).bus = .ignoring ∧ address.kind = .repeated) →
       exec (.writeAddressMatch p address data) s = .next s)
  ∧ (∀ (s : State) (p : Port) (address : AddressByte) (data : List Byte), s.nreset = true →
       ((s.cpi p).bus = .writing ∨ (s.cpi p).bus = .writeRefused →
         ∃ t, exec (.frameTaken p) s = .next t ∧ (t.cpi p).bus = .free
           ∧ exec (.writeAddressMatch p address data) s = exec (.writeAddressMatch p address data) t)
       ∧ ((s.cpi p).bus = .readHeld ∨ (s.cpi p).bus = .readNone ∨ (∃ code, (s.cpi p).bus = .readPending code) →
         ∃ t, exec (.readEnd p 0) s = .next t ∧ (t.cpi p).bus = .free
           ∧ exec (.writeAddressMatch p address data) s = exec (.writeAddressMatch p address data) t)
       ∧ ((s.cpi p).bus = .stretching → exec (.writeAddressMatch p address data) s = .next s))

/-- The end of a write (R162, R163, Table 10.3): an empty write leaves the port as it was; a malformed frame is answered
FRAME_ERROR with the first detail that applies, its first byte echoed and the number of bytes received; a well-formed frame
with an unknown code is answered UNKNOWN_COMMAND (R164). None of these reaches a block behind the port. A write that was not
acknowledged just ends (R161). Where no write is open the row changes nothing (log entry 8). -/
def Obligations.FrameTakenJudgesTheBuffer : Prop :=
  (∀ (s : State) (p : Port), s.nreset = true → (s.cpi p).bus = .writing →
     let c := s.cpi p
     let respond := fun (k : Completion) (code : Byte) (payload : List Byte) =>
       s.setCpi p
         { c with
           state := .holding, slot := some { completion := k, lost := c.slot.isSome, code, payload }
           pendingGiven := false, buffer := [], long := false, bus := .free }
     let error := fun detail : Byte => respond .frameError (c.buffer.headD 0) [detail, byteOf c.buffer.length]
     (c.buffer = [] → c.long = false →
       exec (.frameTaken p) s
         = .next
           (s.setCpi p
             { c with state := match c.prior with | .idle => .idle | .holding => .holding, bus := .free }))
     ∧ (c.long = true → exec (.frameTaken p) s = .next (error 1))
     ∧ (c.long = false → c.buffer.length = 1 ∨ c.buffer.length = 2 → exec (.frameTaken p) s = .next (error 2))
     ∧ (∀ code session n payload, c.long = false → c.buffer = code :: session :: n :: payload →
         (61 < n.toNat ∨ payload.length ≠ n.toNat) →
       exec (.frameTaken p) s = .next (error 3))
     ∧ (∀ code session n payload, c.long = false → c.buffer = code :: session :: n :: payload →
         n.toNat ≤ 61 → payload.length = n.toNat → (∀ k : Command, k.code ≠ code) →
       exec (.frameTaken p) s = .next (respond .unknownCommand code [])))
  ∧ (∀ (s : State) (p : Port),
       (s.nreset = true → (s.cpi p).bus = .writeRefused →
         exec (.frameTaken p) s = .next (s.setCpi p { s.cpi p with bus := .free }))
       ∧ (s.nreset = false ∨ ((s.cpi p).bus ≠ .writing ∧ (s.cpi p).bus ≠ .writeRefused) →
         exec (.frameTaken p) s = .next s))

/-- A read address byte (R166 to R168): the held response is sent byte by byte, its completion by Table 11.4, and then 0xFF; in
Executing SCL is held low; in Idle NONE is sent, which is not stored, and the port stays Idle, also when the read ends; a
foreign address is ignored, and so is every one while NRESET is low (R172). With no transaction of the port open it hears a
START and a repeated START; but a port that ignores the bus after an abandonment or a device reset hears a START alone, to
whatever address, and then listens again (R169, R172). An address byte that comes while a transaction is still open ends
that one first, and a stretched read lets none through (R159, R162, R166; log entry 7). -/
def Obligations.ReadAddressMatchChoosesTheResponse : Prop :=
  (∀ (s : State) (p : Port) (kind : StartKind), s.nreset = true → s.Hears p kind →
     let own : Byte := byteOf (((if s.addrsel then 0x4C else 0x2C) + p.val) * 2 + 1)
     (∀ r, (s.cpi p).state = .holding → (s.cpi p).slot = some r →
       ∃ t, exec (.readAddressMatch p ⟨kind, own⟩) s = .next t ∧ t = s.setCpi p { s.cpi p with bus := .readHeld }
         ∧ ∀ k, t.sentByte p k =
             (([r.completion.code, if r.lost then 1 else 0, r.code, byteOf r.payload.length] ++ r.payload)[k]?).getD 0xFF)
     ∧ ((s.cpi p).state = .executing →
       ∃ t, exec (.readAddressMatch p ⟨kind, own⟩) s = .next t ∧ t = s.setCpi p { s.cpi p with bus := .stretching }
         ∧ t.sclHeld p = true)
     ∧ (∀ n : Nat, (s.cpi p).state = .idle →
       ∃ t, exec (.readAddressMatch p ⟨kind, own⟩) s = .next t ∧ t = s.setCpi p { s.cpi p with bus := .readNone }
         ∧ t.sentByte p 0 = 0x01 ∧ t.sentByte p 1 = 0x00 ∧ t.sentByte p 2 = 0x00 ∧ t.sentByte p 3 = 0x00
         ∧ (∀ k, 4 ≤ k → t.sentByte p k = 0xFF)
         ∧ exec (.readEnd p n) t = .next (s.setCpi p { s.cpi p with bus := .free }))
     ∧ (∀ address, address ≠ own →
       exec (.readAddressMatch p ⟨kind, address⟩) s = .next (s.setCpi p { s.cpi p with bus := .free })))
  ∧ (∀ (s : State) (p : Port) (address : AddressByte),
       s.nreset = false ∨ ((s.cpi p).bus = .ignoring ∧ address.kind = .repeated) →
       exec (.readAddressMatch p address) s = .next s)
  ∧ (∀ (s : State) (p : Port) (address : AddressByte), s.nreset = true →
       ((s.cpi p).bus = .writing ∨ (s.cpi p).bus = .writeRefused →
         ∃ t, exec (.frameTaken p) s = .next t ∧ (t.cpi p).bus = .free
           ∧ exec (.readAddressMatch p address) s = exec (.readAddressMatch p address) t)
       ∧ ((s.cpi p).bus = .readHeld ∨ (s.cpi p).bus = .readNone ∨ (∃ code, (s.cpi p).bus = .readPending code) →
         ∃ t, exec (.readEnd p 0) s = .next t ∧ (t.cpi p).bus = .free
           ∧ exec (.readAddressMatch p address) s = exec (.readAddressMatch p address) t)
       ∧ ((s.cpi p).bus = .stretching → exec (.readAddressMatch p address) s = .next s))
  ∧ [Completion.ok, .none, .pending, .frameError, .unknownCommand, .notAttached, .lapsing, .staleSession, .notSupervisor,
      .badArg, .sessionEnding].map Completion.code
      = [0x00, 0x01, 0x02, 0x03, 0x04, 0x05, 0x06, 0x07, 0x08, 0x09, 0x0A]
  ∧ [Completion.attached, .alreadyLapsing, .owned, .noneFree, .notOwner, .notHeld, .revoking, .inUse].map Completion.code
      = [0x10, 0x11, 0x20, 0x21, 0x22, 0x23, 0x24, 0x25]
  ∧ [Completion.nothingStaged, .countMismatch, .badCheck, .tooLarge, .badTarget, .queueFull, .poolFull, .portCap,
      .notGuarded, .badRect, .bankNotHeld, .guardFull].map Completion.code
      = [0x30, 0x31, 0x32, 0x33, 0x34, 0x35, 0x36, 0x37, 0x38, 0x39, 0x3A, 0x3B]
  ∧ [Completion.applied, .rejected, .timeout, .tooLate, .noSuchBatch].map Completion.code
      = [0x40, 0x41, 0x42, 0x43, 0x44]

/-- The end of a read (R166): a held response whose 4 + m bytes have all been read is consumed; one that has not stays; a read
of NONE or PENDING just ends. -/
def Obligations.ReadEndConsumesAFullyReadResponse : Prop :=
  ∀ (s : State) (p : Port) (n : Nat), s.nreset = true →
    (∀ r, (s.cpi p).bus = .readHeld → (s.cpi p).slot = some r → 4 + r.payload.length ≤ n →
      exec (.readEnd p n) s
        = .next (s.setCpi p { s.cpi p with state := .idle, slot := none, pendingGiven := false, bus := .free }))
    ∧ (∀ r, (s.cpi p).bus = .readHeld → (s.cpi p).slot = some r → n < 4 + r.payload.length →
      exec (.readEnd p n) s = .next (s.setCpi p { s.cpi p with bus := .free }))
    ∧ ((s.cpi p).bus = .readNone ∨ (∃ code, (s.cpi p).bus = .readPending code) →
      exec (.readEnd p n) s = .next (s.setCpi p { s.cpi p with bus := .free }))

/-- The end of the 2 ms stretch limit (R168): PENDING with the in-flight code is sent, then 0xFF; it is not stored, the port
stays Executing, and pending-given is set. Abandonment by bus hold (R169, R163): in Receiving, FRAME_ERROR HOLD with the
first byte received, or 0x00, and the number of bytes; in every other transaction nothing is taken, stored or consumed. The
port then ignores the bus until the next START. That a stretched read is released so is log entry 13. With no transaction
of the port in progress the row changes nothing (log entry 8), nor does the end of a transaction that was abandoned. -/
def Obligations.StretchAndHoldLimitsEnd : Prop :=
  (∀ (s : State) (p : Port) (code : Byte), s.nreset = true → (s.cpi p).bus = .stretching → (s.cpi p).inFlight = some code →
     ∃ t, exec (.stretchLimitExpiry p) s = .next t
       ∧ t = s.setCpi p { s.cpi p with bus := .readPending code, pendingGiven := true }
       ∧ t.sclHeld p = false
       ∧ t.sentByte p 0 = 0x02 ∧ t.sentByte p 1 = 0x00 ∧ t.sentByte p 2 = code ∧ t.sentByte p 3 = 0x00
       ∧ ∀ k, 4 ≤ k → t.sentByte p k = 0xFF)
  ∧ (∀ (s : State) (p : Port), s.nreset = true →
       let c := s.cpi p
       (c.bus = .writing →
         exec (.busHoldAbandon p) s
           = .next
             (s.setCpi p
               { c with
                 state := .holding
                 slot := some
                   { completion := .frameError, lost := c.slot.isSome, code := c.buffer.headD 0,
                     payload := [4, byteOf c.buffer.length] }
                 pendingGiven := false, buffer := [], long := false, bus := .ignoring }))
       ∧ (c.bus ≠ .writing → ¬ s.BusQuiet p →
         exec (.busHoldAbandon p) s = .next (s.setCpi p { c with bus := .ignoring }))
       ∧ (s.BusQuiet p →
         exec (.busHoldAbandon p) s = .next s ∧ exec (.frameTaken p) s = .next s ∧ ∀ n, exec (.readEnd p n) s = .next s))

/-- ATTN is asserted exactly while the Notice Queue is non-empty, its dropped count is non-zero, or a response given PENDING
waits unread in the slot. That the last holds also while a new write is being received, the slot still full, is the model's
reading of R170 (log entry 32): so a write address match does not change the line. -/
def Obligations.AttnFollowsNoticesAndPendingResponse : Prop :=
  (∀ (s : State) (p : Port),
     s.attn p = true ↔
       (s.noticeQueue p).records ≠ [] ∨ (s.noticeQueue p).dropped ≠ 0
         ∨ ((s.cpi p).pendingGiven = true ∧ (s.cpi p).slot.isSome = true))
  ∧ (∀ (s : State) (p : Port) (address : AddressByte) (data : List Byte), s.BusQuiet p →
       ∃ t, exec (.writeAddressMatch p address data) s = .next t ∧ t.attn p = s.attn p)

/-- Taking a post (R152, Table 9.3): stored at the tail while there is room, else counted as dropped up to 255; a Detached
port stores SESSION_ENDED alone and counts nothing. -/
def Obligations.NoticeQueueTakesAPost : Prop :=
  ∀ (s : State) (p : Port) (n : Notice),
    let q := s.noticeQueue p
    ((s.session p).state ≠ .detached ∨ n.kind = .sessionEnded →
      (q.records.length < 16 → s.post p n = s.setNotices p { q with records := q.records ++ [n] })
      ∧ (16 ≤ q.records.length → q.dropped < 255 → s.post p n = s.setNotices p { q with dropped := q.dropped + 1 })
      ∧ (16 ≤ q.records.length → 255 ≤ q.dropped → s.post p n = s.setNotices p q))
    ∧ ((s.session p).state = .detached → n.kind ≠ .sessionEnded → s.post p n = s)

/-! ### Fields -/

/-- Field Start (R37, R39, R10, R19, R46, R50, R142): the field number advances, the pending Scan Record is taken, the waiters
count down, the snapshot is taken of the Live State with the record just taken, the fault sets are emptied, every guard
record is latched and noted. The stored planes, the Stacking List, the Palette Store and the rest of the part stay. The
model's choices in it: the rest of the blanking goes by, and the delay line holds its end (log entry 9); a waiter that
reaches 0 is made due, and its completion is a row of its own (log entry 11); a report or a comparison that is still due is
dropped (log entry 24). -/
def Obligations.FieldStartBeginsAField : Prop :=
  ∀ s : State, s.nreset = true → s.timing.region = .blanking → s.window = none →
    let scan := if s.live.pendingMark then s.live.pendingScan else s.live.scan
    let blank : OutWord := { data := ⟨0, 0, 0⟩, de := false, hs := true, vs := true }
    let clip : Rect → Option Clip := fun r =>
      if scan.width ≤ r.x0.val ∨ scan.height ≤ r.y0.val then none
      else
        some
          { x0 := r.x0.val, y0 := r.y0.val, x1 := min r.x1.val (scan.width - 1), y1 := min r.y1.val (scan.height - 1) }
    ∃ t, exec .fieldStart s = .next t
      ∧ t.timing.field = s.timing.field + 1
      ∧ t.timing.region = .active ∧ t.timing.line = 0 ∧ t.timing.pixel = 0 ∧ t.srcFs = true
      ∧ t.live.scan = scan ∧ t.live.pendingMark = false ∧ t.live.pendingScan = s.live.pendingScan
      ∧ t.live.planes = s.live.planes ∧ t.live.order = s.live.order ∧ t.live.palette = s.live.palette
      ∧ (∀ p : Port, t.timing.waiters[p] =
          match s.timing.waiters[p] with
          | none => none
          | some w =>
            if w.due.isSome then some w
            else some { remaining := w.remaining - 1, due := if w.remaining ≤ 1 then some (s.timing.field + 1) else none })
      ∧ (∀ q : Plane, t.compose.snapshot.held[q] = s.live.isHeld q ∧ t.compose.snapshot.owners[q] = s.planeOwner q)
      ∧ t.compose =
          { s.compose with
            snapshot :=
              { planes := s.live.planes, order := s.live.order, palette := s.live.palette, scan
                held := t.compose.snapshot.held, owners := t.compose.snapshot.owners }
            faultA := Vector.replicate 3 none, faultB := Vector.replicate 3 none, reportDue := false
            pipe := ⟨blank, blank, blank, blank⟩ }
      ∧ (∀ q : Plane, t.live.guards[q] =
          (s.live.guards[q].map fun r : GuardRecord =>
            { r with
              latched := r.expected, changed := false
              note := some
                { enabled := s.live.planes[q].enabled, clip := clip s.live.planes[q].rect, signature := 0 } }))
      ∧ t.monitor = { newScan := s.live.pendingMark, compareDue := false }
      ∧ t = { s with timing := t.timing, live := t.live, compose := t.compose, monitor := t.monitor, notices := t.notices }

/-- The reference at a Field Start (R43, R44, Table 3.3): the state and flag by which the blanking ends, then what taking a
record with another follow makes of them, and the length of the blanking (log entry 10). The notices (R45, R47):
REFERENCE_LOST or REFERENCE_FOUND to the supervisor, then SCAN_CHANGED with its changed-field flags, bits 7:5 of which are 0
by log entry 34, to every Attached port, each with the number of the field that begins. A plain record, from which the
statements build every notice, names no subject, batch and resource, and its details are 0. -/
def Obligations.FieldStartMovesTheReferenceAndPosts : Prop :=
  (∀ s t : State, s.nreset = true → s.timing.region = .blanking → s.window = none → exec .fieldStart s = .next t →
     let ended : RefState × Bool :=
       match s.timing.refState, s.timing.pendingRef with
       | .free, flag => (.free, flag)
       | .holdover, false => (.holdover, false)
       | .holdover, true => (.locked, false)
       | .locked, true => (.locked, false)
       | .locked, false => (.holdover, false)
     (t.timing.refState, t.timing.pendingRef) =
         (if s.live.pendingMark = false ∨ s.live.pendingScan.follow = s.live.scan.follow then ended
         else if s.live.pendingScan.follow then (.holdover, false)
         else (.free, false))
     ∧ (s.timing.refState ≠ .locked → t.timing.lastBlanking = s.live.scan.vblank)
     ∧ (s.timing.refState = .locked → s.timing.pendingRef = false →
         t.timing.lastBlanking = s.live.scan.vblank + s.live.scan.lossMargin)
     ∧ (s.timing.refState = .locked → s.timing.pendingRef = true →
         t.timing.lastBlanking = max s.live.scan.vblank (if s.timing.pixel = 0 then s.timing.line else s.timing.line + 1)))
  ∧ (∀ s t : State, s.nreset = true → s.timing.region = .blanking → s.window = none → exec .fieldStart s = .next t →
       let field := s.timing.field + 1
       let reference : List Notice :=
         match s.timing.refState, s.timing.pendingRef with
         | .locked, false => [.plain .referenceLost field]
         | .holdover, true => [.plain .referenceFound field]
         | .locked, true => []
         | .holdover, false => []
         | .free, _ => []
       let old := s.live.scan
       let new := s.live.pendingScan
       let flags : Byte :=
         (if old.width ≠ new.width ∨ old.height ≠ new.height then 1 else 0)
           + (if old.hblank ≠ new.hblank ∨ old.vblank ≠ new.vblank then 2 else 0)
           + (if old.follow ≠ new.follow ∨ old.lossMargin ≠ new.lossMargin then 4 else 0)
           + (if old.background ≠ new.background then 8 else 0) + (if old.format ≠ new.format then 16 else 0)
       ∀ p : Port, t.noticeQueue p =
         if (s.session p).state = .attached then
           (s.noticeQueue p).takes
             ((if s.supervisor = some p then reference else [])
               ++ if s.live.pendingMark then [{ Notice.plain .scanChanged field with d0 := flags }] else [])
         else s.noticeQueue p)
  ∧ ∀ (kind : NoticeKind) (field : Byte),
      Notice.plain kind field
        = { kind, field, subject := none, batch := none, resource := none, d0 := 0, d1 := 0, d2 := 0 }

/-- A WAIT_FIELD whose last Field Start was taken completes OK with the number of the field that began there (R50). A SEAL
whose wait has run out completes TIMEOUT, and its batch stays at its place as an ordinary one (R95); if that is still due
when the batch leaves the queue, it is given then (log entry 11), with the batch number, the cost, the target and the field
of the window whose countdown ran it out. The last part says by which bytes a cost and a target are carried (Table 11.3). -/
def Obligations.OverdueCommandsComplete : Prop :=
  (∀ (s : State) (p : Port) (w : Waiter) (field : Byte), s.nreset = true → s.timing.waiters[p] = some w →
     w.due = some field →
     exec (.waitFieldCompletion p) s = .next ((s.setWaiter p none).complete p .ok [field]))
  ∧ (∀ (s : State) (p : Port) (l : List Batch) (b : Batch) (r : List Batch) (field : Byte), s.nreset = true →
       s.queue = l ++ b :: r → (∀ x ∈ l, x.port = p → x.wait = false ∨ x.timedOut = none) →
       b.port = p → b.wait = true → b.timedOut = some field →
       exec (.sealTimeout p) s
         = .next
           ({ s with queue := l ++ { b with wait := false, timedOut := none } :: r }.complete p .timeout
             (b.number :: be16 b.cost ++ targetBytes b.target ++ [field])))
  ∧ (∀ (s : State) (b : Batch),
       (b.wait = false ∨ b.timedOut = none → s.overdueTimeout b = s)
       ∧ ∀ field : Byte, b.wait = true → b.timedOut = some field →
         s.overdueTimeout b
           = s.complete b.port .timeout
             ([b.number, byteOf (b.cost / 256), byteOf b.cost]
               ++ (match b.target with | none => [0, 0] | some n => [1, n]) ++ [field]))
  ∧ (∀ n : Nat, be16 n = [byteOf (n / 256), byteOf n])
  ∧ targetBytes none = [0, 0] ∧ (∀ n : Byte, targetBytes (some n) = [1, n])

/-- A pulse of REF_IN (R42): ignored in FREE; in HOLDOVER and LOCKED it sets the flag, and a flag already set stays. -/
def Obligations.RefInPulseSetsTheFlag : Prop :=
  ∀ s : State, s.nreset = true →
    (s.timing.refState ≠ .free → exec .refInPulse s = .next { s with timing := { s.timing with pendingRef := true } })
    ∧ (s.timing.refState = .free → exec .refInPulse s = .next s)

/-- Blank Start (R38, R78, R81): the blanking begins, the window opens with its budget, its current field and its members,
whose targets are tested, and the comparison and the report of the field are due. It is taken from any point of the active
region: what is left of it goes by, and the delay line holds the end of its last line (log entry 9). -/
def Obligations.BlankStartOpensTheWindow : Prop :=
  ∀ s : State, s.nreset = true → s.timing.region = .active →
    let blank : OutWord := { data := ⟨0, 0, 0⟩, de := false, hs := true, vs := false }
    exec .blankStart s
      = .next
        { s with
          window :=
            some { budget := 64 * (s.live.scan.vblank - 1), remaining := 64 * (s.live.scan.vblank - 1)
                   field := s.timing.field, stage := .lapses, skipped := [] }
          queue :=
            s.queue.map (fun b : Batch =>
              if b.state = .queued then
                { b with
                  member := true, scanned := false
                  reached := b.reached || b.target.any fun n => decide ((s.timing.field - n).toNat < 128) }
              else b)
          timing := { s.timing with region := .blanking, line := 0, pixel := 0 }
          monitor := { s.monitor with compareDue := true }
          compose := { s.compose with reportDue := true, pipe := ⟨blank, blank, blank, blank⟩ } }

/-! ### Composition -/

/-- An active pixel whose samples are still to be taken (R11, R17, R19, R40, R143): at the edge that begins period x + 2 of
its line its colour, walked from the background over the Stacking List, is given to its period in the delay line, which
OUT_DE marks, and is folded into the signature of each guarded plane whose noted rectangle holds the pixel; the fault sets
keep the walk's substitutions; the counters stand in period x + 2. When the counters stood before period x + 1, what lies
between goes by: periods of the pixel's line with OUT_DE and no colour, after the end of the line before (log entry 9). The
stream pins keep the samples (log entry 3). -/
def Obligations.PixelComposeDrivesTheOutput : Prop :=
  ∀ (s : State) (x y : Nat) (a b : Sample), s.nreset = true → s.timing.region = .active →
    (s.timing.line < y ∨ (s.timing.line = y ∧ s.timing.pixel ≤ x + 1)) → x < s.live.scan.width → y < s.live.scan.height →
    let w := walkPixel s.compose.snapshot x y a b s.compose.faultA s.compose.faultB
    let pipe := s.compose.pipe
    let word := fun de hs : Bool => ({ data := ⟨0, 0, 0⟩, de, hs, vs := false } : OutWord)
    let gone : List OutWord :=
      if s.timing.line = y then
        [pipe.pins, pipe.second, pipe.third, pipe.newest] ++ List.replicate (x + 1 - s.timing.pixel) (word true false)
      else List.replicate 4 (word false true) ++ List.replicate (x + 1) (word true false)
    ∃ t, exec (.pixelCompose x y a b) s = .next t
      ∧ (∀ older before before2 before3, gone = older ++ [before3, before2, before] →
          t.compose.pipe =
            { pins := before3, second := before2, third := { before with data := w.colour }
              newest := word (decide (x + 1 < s.live.scan.width)) (decide (s.live.scan.width ≤ x + 1)) })
      ∧ (∀ q : Plane, t.live.guards[q] =
          (s.live.guards[q].map fun r : GuardRecord =>
            match r.note with
            | none => r
            | some n =>
              if n.enabled = true ∧ ∃ c, n.clip = some c ∧ c.x0 ≤ x ∧ x ≤ c.x1 ∧ c.y0 ≤ y ∧ y ≤ c.y1 then
                { r with
                  note := some
                    { n with
                      signature :=
                        n.signature.rotateLeft 1
                          ^^^ BitVec.ofNat 32 (w.colour.r.toNat * 65536 + w.colour.g.toNat * 256 + w.colour.b.toNat) } }
              else r))
      ∧ (t.timing.line, t.timing.pixel) =
          (if x + 2 < s.live.scan.width + s.live.scan.hblank then (y, x + 2) else (y + 1, 0))
      ∧ t = { s with
          timing := { s.timing with line := t.timing.line, pixel := t.timing.pixel }
          live := { s.live with guards := t.live.guards }
          compose :=
            { s.compose with
              faultA := w.faultA, faultB := w.faultB, sampleA := a, sampleB := b, pipe := t.compose.pipe } }

/-- The modes (R13, R14): an Opaque plane gives its plane colour; a Keyed plane whose plane colour equals its key in all three
components leaves the result, and otherwise gives its plane colour; a Blended plane mixes channel by channel with the
division truncated, alpha 16 giving the plane colour and alpha 0 the result unchanged. -/
def Obligations.ModesCombineThePlaneColour : Prop :=
  (∀ plane result : Colour, combine .opaqueMode plane result = plane)
  ∧ (∀ key plane result : Colour,
      (plane.r = key.r ∧ plane.g = key.g ∧ plane.b = key.b → combine (.keyed key) plane result = result)
      ∧ (plane.r ≠ key.r ∨ plane.g ≠ key.g ∨ plane.b ≠ key.b → combine (.keyed key) plane result = plane))
  ∧ (∀ (alpha : Fin 17) (plane result : Colour),
      (combine (.blended alpha) plane result).r.toNat
          = (alpha.val * plane.r.toNat + (16 - alpha.val) * result.r.toNat + 8) / 16
      ∧ (combine (.blended alpha) plane result).g.toNat
          = (alpha.val * plane.g.toNat + (16 - alpha.val) * result.g.toNat + 8) / 16
      ∧ (combine (.blended alpha) plane result).b.toNat
          = (alpha.val * plane.b.toNat + (16 - alpha.val) * result.b.toNat + 8) / 16)
  ∧ (∀ plane result : Colour,
      combine (.blended 16) plane result = plane ∧ combine (.blended 0) plane result = result)

/-- The walk starts from the background and takes the planes of the Stacking List in its order (R11). One plane of it (R11,
R12, R15, R18, R19, R25, R26): a plane that does not cover the pixel is passed over; a held one shows its fill colour,
Opaque; a stream plane shows its sample, or for an Indexed Stream B sample the entry of its bank or the grey of the index,
or its fill colour when the sample is not valid, and then its owner's record holds the lower plane number. -/
def Obligations.EachCoveringPlaneIsPainted : Prop :=
  (∀ (snap : Snapshot) (x y : Nat) (a b : Sample) (faultA faultB : Vector (Option Plane) 3),
    walkPixel snap x y a b faultA faultB
      = snap.order.foldl (paint snap x y a b) { colour := snap.scan.background, faultA, faultB })
  ∧ ∀ (snap : Snapshot) (x y : Nat) (a b : Sample) (w : Walk) (p : Plane), 0 < snap.scan.width → 0 < snap.scan.height →
    let r := snap.planes[p]
    let covers :=
      r.enabled = true ∧ r.rect.x0.val ≤ x ∧ x ≤ min r.rect.x1.val (snap.scan.width - 1) ∧ r.rect.y0.val ≤ y
        ∧ y ≤ min r.rect.y1.val (snap.scan.height - 1)
    let shown := fun c : Colour => { w with colour := combine r.mode c w.colour }
    let noted := fun (o : Port) (set : Vector (Option Plane) 3) =>
      set.set o (some (match set[o] with | none => p | some q => if p < q then p else q))
    (¬ covers → paint snap x y a b w p = w)
    ∧ (covers → snap.held[p] = true → paint snap x y a b w p = { w with colour := r.fill })
    ∧ (covers → snap.held[p] = false →
        (r.source = .fill → paint snap x y a b w p = shown r.fill)
        ∧ (r.source = .streamA → a.valid = true → paint snap x y a b w p = shown a.colour)
        ∧ (r.source = .streamB → b.valid = true → snap.scan.format = .direct → paint snap x y a b w p = shown b.colour)
        ∧ (r.source = .streamB → b.valid = true → snap.scan.format = .indexed → r.palette = none →
            paint snap x y a b w p = shown ⟨b.colour.b, b.colour.b, b.colour.b⟩)
        ∧ (∀ bank, r.source = .streamB → b.valid = true → snap.scan.format = .indexed → r.palette = some bank →
            paint snap x y a b w p = shown (bankEntry snap.palette bank b.colour.b.toNat))
        ∧ (∀ o, r.source = .streamA → a.valid = false → snap.owners[p] = some o →
            paint snap x y a b w p = { shown r.fill with faultA := noted o w.faultA })
        ∧ (∀ o, r.source = .streamB → b.valid = false → snap.owners[p] = some o →
            paint snap x y a b w p = { shown r.fill with faultB := noted o w.faultB }))

/-! ### Edits of a batch -/

/-- ORDER TOP and BOTTOM (R7, Table 1.2): the other 15 planes keep their relative order, the plane goes to the border or the
end of its own band, and the batch is never marked as clamped. ABOVE and BELOW (R8): the plane goes next to q in the list
of the other 15 when the place keeps the bands whole, and otherwise to the border of its band, which marks the batch. -/
def Obligations.OrderEditsKeepThePlaneInItsBand : Prop :=
  (∀ (w : Work) (index : Nat) (p : Plane) (low high : List Plane),
     let guarded := fun q : Plane => w.live.isGuarded q
     w.live.order.erase p = low ++ high → (∀ q ∈ low, guarded q = false) → (∀ q ∈ high, guarded q = true) →
     (guarded p = false →
       (w.edit index (.order p .top)).live.order = low ++ p :: high
       ∧ (w.edit index (.order p .bottom)).live.order = p :: (low ++ high))
     ∧ (guarded p = true →
       (w.edit index (.order p .top)).live.order = low ++ high ++ [p]
       ∧ (w.edit index (.order p .bottom)).live.order = low ++ p :: high)
     ∧ (∀ form, form = .top ∨ form = .bottom →
         w.edit index (.order p form)
           = { w with live := { w.live with order := (w.edit index (.order p form)).live.order } }))
  ∧ (∀ (w : Work) (index : Nat) (p q : Plane) (below above low high : List Plane) (form : OrderForm),
       let guarded := fun x : Plane => w.live.isGuarded x
       (form = .above q ∧ w.live.order.erase p = (below ++ [q]) ++ above ∧ q ∉ below
         ∧ w.live.order.erase p = low ++ high)
       ∨ (form = .below q ∧ w.live.order.erase p = below ++ (q :: above) ∧ q ∉ below
         ∧ w.live.order.erase p = low ++ high) →
       (∀ x ∈ low, guarded x = false) → (∀ x ∈ high, guarded x = true) →
       let lower := if form = .above q then below ++ [q] else below
       let upper := if form = .above q then above else q :: above
       let breaks := (guarded p = false ∧ ∃ x ∈ lower, guarded x = true) ∨ (guarded p = true ∧ ∃ x ∈ upper, guarded x = false)
       (¬ breaks →
         w.edit index (.order p form) = { w with live := { w.live with order := lower ++ p :: upper } })
       ∧ (breaks →
         w.edit index (.order p form) = { w with live := { w.live with order := low ++ p :: high }, clamped := true }))

/-- GUARD set and clear (R138, R139, Table 8.2) on a list that holds each plane once with the bands whole. -/
def Obligations.GuardEditsMoveThePlaneBetweenTheBands : Prop :=
  ∀ (w : Work) (index : Nat) (p : Plane) (low high : List Plane),
    w.live.order.erase p = low ++ high →
    (∀ q ∈ low, w.live.isGuarded q = false) → (∀ q ∈ high, w.live.isGuarded q = true) →
    (w.live.order.Perm allPlanes) →
    (w.live.isGuarded p = false →
      w.edit index (.guard p true) =
          { w with
            guardSet := some index
            live :=
              { w.live with
                order := low ++ high ++ [p]
                guards := w.live.guards.set p
                  (some
                    { expected := none, latched := none, limit := 3, action := .notify, runCount := 0, held := false,
                      lastSignature := none, lastResult := .notCompared, changed := true, note := none }) } }
      ∧ w.edit index (.guard p false) = w)
    ∧ (w.live.isGuarded p = true →
      w.edit index (.guard p true) = w
      ∧ w.edit index (.guard p false) =
          { w with
            live :=
              { w.live with
                order := if high = [] then w.live.order else low ++ p :: high
                guards := w.live.guards.set p none } })

/-- PLANE, COLOURS, SIGNATURE and SCAN edits on the working copy (R5, R28, R140, R35): the fields, entries or record an edit
names are overwritten with its values and everything else keeps the value it has. A batch's working copy is the Live State
with its edits applied one after the other, the last of n with index n (R85). -/
def Obligations.EditsOverwriteWhatTheyName : Prop :=
  (∀ l : Live, workOf l [] = { live := l, clamped := false, guardSet := none, unguarded := none })
  ∧ (∀ (l : Live) (edits : List Edit) (e : Edit), workOf l (edits ++ [e]) = (workOf l edits).edit (edits.length + 1) e)
  ∧ ∀ (w : Work) (index : Nat),
    (∀ e : PlaneEdit,
      let r := w.live.planes[e.plane]
      w.edit index (.plane e) =
        { w with
          live :=
            { w.live with
              planes := w.live.planes.set e.plane
                { enabled := e.enabled.getD r.enabled, rect := e.rect.getD r.rect, source := e.source.getD r.source
                  fill := e.fill.getD r.fill, palette := e.palette.getD r.palette, mode := e.mode.getD r.mode } } })
    ∧ (∀ (bank : Bank) (first : Nat) (cs : List Colour), first + cs.length ≤ 256 →
        Memory.wf w.live.palette = true →
        let t := w.edit index (.colours bank first cs)
        (∀ (other : Bank) (i : Nat), i < 256 →
          bankEntry t.live.palette other i =
            if other = bank ∧ first ≤ i ∧ i < first + cs.length then cs.getD (i - first) .black
            else bankEntry w.live.palette other i)
        ∧ t = { w with live := { w.live with palette := t.live.palette } })
    ∧ (∀ (p : Plane) (expected : Option (BitVec 32)) (limit : Nat) (action : GuardAction),
        (∀ r, w.live.guards[p] = some r →
          w.edit index (.signature p expected limit action) =
            { w with
              live :=
                { w.live with
                  guards := w.live.guards.set p
                    (some { r with expected, limit, action, runCount := 0, held := false, changed := true }) } })
        ∧ (w.live.guards[p] = none →
          w.edit index (.signature p expected limit action) =
            { w with unguarded := if w.unguarded.isSome then w.unguarded else some (index, p) }))
    ∧ (∀ e : ScanEdit,
        let r := w.live.pendingScan
        w.edit index (.scan e) =
          { w with
            live :=
              { w.live with
                pendingMark := true
                pendingScan :=
                  { width := e.width.getD r.width, height := e.height.getD r.height, hblank := e.hblank.getD r.hblank
                    vblank := e.vblank.getD r.vblank, follow := e.follow.getD r.follow
                    lossMargin := e.lossMargin.getD r.lossMargin, background := e.background.getD r.background
                    format := e.format.getD r.format } } })

/-- Validation (R86, R87, R30) tries the reasons of Table 5.3 in their order and names the offending edit, counted from 1:
NOT_OWNER, a plane or bank touched is not the port's, Held or Revoking; BAD_RECT, a rectangle written is invalid in the
working copy; BANK_NOT_HELD, an enabled plane names a bank that its owner does not hold; GUARD_FULL, more than 4 planes are
guarded; NOT_GUARDED, a SIGNATURE edit found its plane without a record. It passes exactly when none holds. -/
def Obligations.ValidationTriesTheReasonsInOrder : Prop :=
  ∀ (s : State) (p : Port) (edits : List Edit) (w : Work),
    let mine := fun r : Resource => s.claimOf r = .held p ∨ s.claimOf r = .revoking p
    let badRect := fun (q : Plane) (e : Edit) =>
      ∃ x : PlaneEdit, e = .plane x ∧ x.plane = q ∧ x.rect.isSome = true
        ∧ ¬ (w.live.planes[q].rect.x0 ≤ w.live.planes[q].rect.x1 ∧ w.live.planes[q].rect.y0 ≤ w.live.planes[q].rect.y1)
    let badBank := fun (q : Plane) (b : Bank) =>
      w.live.planes[q].enabled = true ∧ w.live.planes[q].palette = some b
        ∧ ¬ ∃ o, s.planeOwner q = some o ∧ s.bankOwner b = some o
    let badName := fun (q : Plane) (e : Edit) => (∃ x : PlaneEdit, e = .plane x ∧ x.plane = q) ∧ ∃ b, badBank q b
    let lastOf := fun (sel : Plane → Edit → Prop) (q : Plane) (e : Edit) (later : List Edit) =>
      sel q e ∧ ∀ e' ∈ later, ¬ sel q e'
    let firstOfLasts := fun (sel : Plane → Edit → Prop) (l : List Edit) (q : Plane) (e : Edit) (r : List Edit) =>
      lastOf sel q e r ∧ ∀ u x v k, l = u ++ x :: v → ¬ lastOf sel k x (v ++ e :: r)
    let owned := ∀ e ∈ edits, ∀ r, e.touched = some r → mine r
    let rects := ∀ e ∈ edits, ∀ q, ¬ badRect q e
    let banks := ∀ q b, ¬ badBank q b
    (validate s p edits w = .pass ↔ owned ∧ rects ∧ banks ∧ w.live.guardCount ≤ 4 ∧ w.unguarded = none)
    ∧ (∀ l e r x, edits = l ++ e :: r → (∀ e' ∈ l, ∀ y, e'.touched = some y → mine y) → e.touched = some x → ¬ mine x →
        validate s p edits w = .fail .notOwner (l.length + 1) (some x))
    ∧ (owned → ∀ l e r q, edits = l ++ e :: r → firstOfLasts badRect l q e r →
        validate s p edits w = .fail .badRect (l.length + 1) (some (.plane q)))
    ∧ (owned → rects → ∀ l e r q b, edits = l ++ e :: r → firstOfLasts badName l q e r → badBank q b →
        validate s p edits w = .fail .bankNotHeld (l.length + 1) (some (.bank b)))
    ∧ (owned → rects → banks → 4 < w.live.guardCount → ∀ i, w.guardSet = some i →
        validate s p edits w = .fail .guardFull i none)
    ∧ (owned → rects → banks → w.live.guardCount ≤ 4 → ∀ i q, w.unguarded = some (i, q) →
        validate s p edits w = .fail .notGuarded i (some (.plane q)))

/-! ### The work of a blanking -/

/-- The report of the field's stream faults (R20): for Stream A and then for Stream B one STREAM_FAULT to each recorded port
that is Attached, with the number of the field just ended and the recorded plane. -/
def Obligations.StreamFaultsAreReportedOnce : Prop :=
  ∀ s : State, s.nreset = true → s.compose.reportDue = true →
    let fault := fun (code : Byte) (record : Option Plane) =>
      match record with
      | none => []
      | some q => [{ Notice.plain .streamFault s.timing.field with resource := some (.plane q), d0 := code }]
    ∃ t, exec .streamFaultReport s = .next t
      ∧ (∀ p : Port, t.noticeQueue p =
          if (s.session p).state = .attached then
            (s.noticeQueue p).takes (fault 0 s.compose.faultA[p] ++ fault 1 s.compose.faultB[p])
          else s.noticeQueue p)
      ∧ t = { s with notices := t.notices, compose := { s.compose with reportDue := false } }

/-- The comparisons of a Blank Start (R144 to R146). The records: the signature of a plane noted enabled becomes its last
signature; a compared record that agrees is a match and its run ends; one that differs is a mismatch, its run count rises
up to the limit, and reaching it with action SUBSTITUTE sets held. The notices, in increasing plane number:
SIGNATURE_MISMATCH to the owner at the first mismatch of a run, then SIGNATURE_LIMIT to the owner, and to the supervisor
when it is another, when the run reaches the limit; a Detached port stores none. -/
def Obligations.SignatureComparisonJudgesAndPosts : Prop :=
  (∀ s : State, s.nreset = true → s.monitor.compareDue = true →
     ∃ t, exec .signatureCompare s = .next t
       ∧ (∀ q : Plane, s.live.guards[q] = none → t.live.guards[q] = none)
       ∧ (∀ (q : Plane) (r : GuardRecord), s.live.guards[q] = some r →
           (∀ n, r.note = some n → n.enabled = true →
             let ended := { r with lastSignature := some n.signature }
             (r.latched = none ∨ r.changed = true ∨ s.monitor.newScan = true →
               t.live.guards[q] = some { ended with lastResult := .notCompared })
             ∧ (∀ v, r.latched = some v → r.changed = false → s.monitor.newScan = false →
                 (n.signature = v → t.live.guards[q] = some { ended with lastResult := .isMatch, runCount := 0 })
                 ∧ (n.signature ≠ v →
                   t.live.guards[q] =
                     some
                       { ended with
                         lastResult := .mismatch
                         runCount := if r.runCount < r.limit then r.runCount + 1 else r.runCount
                         held := r.held || (decide (r.runCount + 1 = r.limit) && r.action == .substitute) })))
           ∧ (r.note = none ∨ (∃ n, r.note = some n ∧ n.enabled = false) →
               t.live.guards[q] = some { r with lastResult := .notCompared }))
       ∧ t = { s with
           notices := t.notices, monitor := { s.monitor with compareDue := false }
           live := { s.live with guards := t.live.guards } })
  ∧ (∀ s t : State, s.nreset = true → s.monitor.compareDue = true → exec .signatureCompare s = .next t →
       let posts := fun (p : Port) (q : Plane) =>
         match s.live.guards[q], s.planeOwner q with
         | some r, some owner =>
           match r.note, r.latched with
           | some n, some v =>
             if n.enabled = true ∧ r.changed = false ∧ s.monitor.newScan = false ∧ n.signature ≠ v then
               (if p = owner ∧ r.runCount = 0 ∧ 0 < r.limit then
                 [{ Notice.plain .signatureMismatch s.timing.field with resource := some (.plane q), d0 := 1 }]
               else [])
               ++ (if (p = owner ∨ s.supervisor = some p) ∧ r.runCount + 1 = r.limit then
                 [{ Notice.plain .signatureLimit s.timing.field with
                     subject := some owner, resource := some (.plane q), d0 := r.action.code, d1 := byteOf r.limit }]
               else [])
             else []
           | _, _ => []
         | _, _ => []
       ∀ p : Port, t.noticeQueue p =
         if (s.session p).state = .detached then s.noticeQueue p
         else (s.noticeQueue p).takes (allPlanes.flatMap (posts p)))

/-- Stage (a) (R112, R113, R141, R154): every plane of a port in the Lapse Set is disabled and its guard disarmed, every claim
of it is Free, the port is Detached, its queue holds SESSION_ENDED alone, and a supervisor that is Attached and not in the
Lapse Set gets one PORT_LAPSED for each. R113 names no value for the ended session's lease interval; that the entry keeps
it is the model's choice (log entry 30). -/
def Obligations.StageACompletesEveryLapse : Prop :=
  ∀ (s : State) (w : Window), s.nreset = true → s.window = some w → w.stage = .lapses →
    let lapsed := fun p : Port => (s.session p).inLapseSet
    let ended := fun o : Option Port => match o with | some p => lapsed p | none => false
    ∃ t, exec .stageALapses s = .next t
      ∧ (∀ q : Plane,
          t.live.planes[q] =
              (if ended (s.planeOwner q) then { s.live.planes[q] with enabled := false } else s.live.planes[q])
          ∧ t.live.guards[q] =
              (if ended (s.planeOwner q) then
                s.live.guards[q].map fun r : GuardRecord => { r with expected := none, held := false, changed := true }
              else s.live.guards[q])
          ∧ t.claimOf (.plane q) = (if ended (s.planeOwner q) then .free else s.claimOf (.plane q)))
      ∧ (∀ b : Bank, t.claimOf (.bank b) = if ended (s.bankOwner b) then .free else s.claimOf (.bank b))
      ∧ (∀ p : Port,
          t.session p =
              (if lapsed p then { s.session p with state := .detached, inLapseSet := false } else s.session p)
          ∧ t.noticeQueue p =
              (if lapsed p then
                { records :=
                    [{ Notice.plain .sessionEnded w.field with
                        subject := some p, d0 := (s.session p).cause.code, d1 := byteOf (s.session p).purged }]
                  dropped := 0 }
              else if s.supervisor = some p then
                (s.noticeQueue p).takes
                  ((allPorts.filter lapsed).map fun q : Port =>
                    { Notice.plain .portLapsed w.field with subject := some q, d0 := (s.session q).cause.code })
              else s.noticeQueue p))
      ∧ t = { s with
          live := { s.live with planes := t.live.planes, guards := t.live.guards }
          planeClaims := t.planeClaims, bankClaims := t.bankClaims, sessions := t.sessions, notices := t.notices
          window := some { w with stage := .revocations } }

/-- Stage (b) (R132 to R134, R141): every Revoking plane is disabled, its guard disarmed, its entry freed; then every Revoking
bank is freed and its number replaced by none in the planes its former owner still owns; CLAIM_REVOKED goes to each former
owner, planes first. -/
def Obligations.StageBCompletesEveryRevocation : Prop :=
  ∀ (s : State) (w : Window), s.nreset = true → s.window = some w → w.stage = .revocations →
    let revoking := fun c : Claim => match c with | .revoking _ => true | .held _ | .free => false
    let revoked := fun (r : Resource) (kind : Byte) =>
      { Notice.plain .claimRevoked w.field with resource := some r, d0 := kind }
    ∃ t, exec .stageBRevocations s = .next t
      ∧ (∀ q : Plane,
          t.live.planes[q] =
              { s.live.planes[q] with
                enabled := if revoking (s.claimOf (.plane q)) then false else s.live.planes[q].enabled
                palette :=
                  match s.live.planes[q].palette, s.claimOf (.plane q) with
                  | some b, .held p => if s.claimOf (.bank b) = .revoking p then none else some b
                  | other, _ => other }
          ∧ t.live.guards[q] =
              (if revoking (s.claimOf (.plane q)) then
                s.live.guards[q].map fun r : GuardRecord => { r with expected := none, held := false, changed := true }
              else s.live.guards[q]))
      ∧ (∀ r : Resource, t.claimOf r = if revoking (s.claimOf r) then .free else s.claimOf r)
      ∧ (∀ p : Port, t.noticeQueue p =
          if (s.session p).state = .detached then s.noticeQueue p
          else
            (s.noticeQueue p).takes
              ((allPlanes.filter fun q => s.claimOf (.plane q) == .revoking p).map (fun q => revoked (.plane q) 0)
                ++ (allBanks.filter fun b => s.claimOf (.bank b) == .revoking p).map fun b => revoked (.bank b) 1))
      ∧ t = { s with
          live := { s.live with planes := t.live.planes, guards := t.live.guards }
          planeClaims := t.planeClaims, bankClaims := t.bankClaims, notices := t.notices
          window := some { w with stage := .scan } }

/-- The scan takes the next batch (Table 5.2, R80, R83, R84), or ends when none is left. A batch whose cost exceeds the budget
leaves rejected TOO_LARGE with edit index 0 and spends nothing; a TIMEOUT of it that is still due is given first (log
entry 11). -/
def Obligations.WindowScanDecidesByItsTable : Prop :=
  ∀ (s : State) (w : Window), s.nreset = true → s.window = some w → w.stage = .scan →
    (∀ x ∈ s.queue, x.state = .queued) →
    ((∀ x ∈ s.queue, x.scanned = true) →
      exec .windowScanStep s = .next { s with window := some { w with stage := .countdown } })
    ∧ ∀ l b r, s.queue = l ++ b :: r → (∀ x ∈ l, x.scanned = true) → b.scanned = false →
      let passed := { s with queue := l ++ { b with scanned := true } :: r }
      let due := b.target.isNone || b.reached
      (b.member = false → exec .windowScanStep s = .next passed)
      ∧ (b.member = true → b.port ∈ w.skipped → exec .windowScanStep s = .next passed)
      ∧ (b.member = true → b.port ∉ w.skipped → due = false →
          exec .windowScanStep s = .next { passed with window := some { w with skipped := b.port :: w.skipped } })
      ∧ (b.member = true → b.port ∉ w.skipped → due = true → w.budget < b.cost →
          let out := { s with queue := l ++ r }.overdueTimeout b
          let gone :=
            out.setHistory b.port
              (pushHistory (s.history b.port) { number := b.number, outcome := .rejected .tooLarge 0, field := w.field })
          exec .windowScanStep s
            = .next
              (if b.wait = true ∧ b.timedOut = none then
                gone.complete b.port .rejected
                  (b.number :: be16 b.cost ++ targetBytes b.target ++ [w.field, 0x33, 0, 0xFF])
              else
                gone.post b.port
                  { Notice.plain .batchRejected w.field with batch := some b.number, d0 := 0x33 }))
      ∧ (b.member = true → b.port ∉ w.skipped → due = true → b.cost ≤ w.budget → w.remaining < b.cost →
          exec .windowScanStep s = .next { s with window := some { w with stage := .countdown } })
      ∧ (b.member = true → b.port ∉ w.skipped → due = true → b.cost ≤ w.budget → b.cost ≤ w.remaining →
          exec .windowScanStep s
            = .next
              { s with
                queue := l ++ { b with scanned := true, state := .applying } :: r
                window := some { w with remaining := w.remaining - b.cost } })

/-- The Applying batch is judged and leaves the queue (R89 to R94): applied, its working copy is live in one step; rejected,
the Live State stands. The working copy is taken of the Live State here, at the validation, where R85 starts it as the batch
becomes Applying: the model's choice (log entries 12 and 29), by which guard-record changes made in between are kept. The
outcome goes to the history, and to the port by notice, or by the completion of its SEAL that waits; a TIMEOUT of it that is
still due is given first (log entry 11). -/
def Obligations.BatchValidationAppliesOrRejects : Prop :=
  ∀ (s : State) (w : Window) (l : List Batch) (b : Batch) (r : List Batch), s.nreset = true → s.window = some w →
    s.queue = l ++ b :: r → (∀ x ∈ l, x.state = .queued) → b.state = .applying →
    let copy := workOf s.live b.edits
    let carried := b.number :: be16 b.cost ++ targetBytes b.target ++ [w.field]
    let left := fun (live : Live) (outcome : BatchOutcome) =>
      ({ s with queue := l ++ r, live }.overdueTimeout b).setHistory b.port
        (pushHistory (s.history b.port) { number := b.number, outcome, field := w.field })
    (validate s b.port b.edits copy = .pass →
      exec .batchValidation s
        = .next
          (if b.wait = true ∧ b.timedOut = none then
            (left copy.live (.applied copy.clamped)).complete b.port .applied (carried ++ [flagByte copy.clamped])
          else
            (left copy.live (.applied copy.clamped)).post b.port
              { Notice.plain .batchApplied w.field with batch := some b.number, d0 := flagByte copy.clamped }))
    ∧ (∀ reason index resource, validate s b.port b.edits copy = .fail reason index resource →
      exec .batchValidation s
        = .next
          (if b.wait = true ∧ b.timedOut = none then
            (left s.live (.rejected reason index)).complete b.port .rejected
              (carried ++ [reason.code, byteOf index,
                match resource with
                | none => 0xFF
                | some (.plane q) => byteOf q.val
                | some (.bank k) => byteOf (0x80 + k.val)])
          else
            (left s.live (.rejected reason index)).post b.port
              { Notice.plain .batchRejected w.field with
                batch := some b.number, resource, d0 := reason.code, d1 := byteOf index }))

/-- The countdown that ends the window (R78, R95): every Queued member whose SEAL waits loses one from its remaining wait, and
at 0 its TIMEOUT is due with the window's field (log entry 11); the marks of the window are cleared. -/
def Obligations.CountdownEndsTheWindow : Prop :=
  ∀ (s : State) (w : Window), s.nreset = true → s.window = some w → (∀ x ∈ s.queue, x.state = .queued) →
    (w.stage = .countdown ∨ (w.stage = .scan ∧ ∀ x ∈ s.queue, x.scanned = true ∨ x.member = false)) →
    exec .waitCountdown s
      = .next
        { s with
          window := none
          queue :=
            s.queue.map (fun b : Batch =>
              if b.member = true ∧ b.wait = true ∧ b.timedOut = none then
                { b with
                  member := false, scanned := false, remainingWait := b.remainingWait - 1
                  timedOut := if b.remainingWait = 1 then some w.field else none }
              else { b with member := false, scanned := false }) }

/-! ### Leases -/

/-- A lease tick (R106, R107) lowers by one the lease remaining of each port that is Attached, has a lease and is not
Executing; where it lowers it to 0 it is the expiry, and a lapse of the port begins with cause EXPIRED, in increasing port
number. The row LEASE_EXPIRY is such a last tick at one port alone (log entry 11); a port that is Executing, or has no
lease, or whose lease has more ticks left, does not expire by it (log entry 8). -/
def Obligations.LeasesTickAndExpire : Prop :=
  (∀ s : State, s.nreset = true →
     let runs := fun p : Port =>
       (s.session p).state = .attached ∧ (s.session p).interval ≠ 0 ∧ (s.cpi p).state ≠ .executing
     let ticked := fun (t : State) (p : Port) =>
       if runs p ∧ (s.session p).remaining.toNat ≤ 1 then t.beginLapse p .expired
       else if runs p then t.setSession p { s.session p with remaining := (s.session p).remaining - 1 }
       else t
     exec .leaseTick s = .next (ticked (ticked (ticked s 0) 1) 2))
  ∧ (∀ (s : State) (p : Port), s.nreset = true →
       ((s.session p).state = .attached → (s.session p).interval ≠ 0 → (s.session p).remaining.toNat ≤ 1 →
           (s.cpi p).state ≠ .executing →
         exec (.leaseExpiry p) s = .next (s.beginLapse p .expired))
       ∧ ((s.session p).state ≠ .attached ∨ (s.session p).interval = 0 ∨ 1 < (s.session p).remaining.toNat
           ∨ (s.cpi p).state = .executing →
         exec (.leaseExpiry p) s = .next s))

/-! ### Laws that every step keeps -/

/-- The picture keeps its laws (R3, R6, R23, R33, R60, R136): the Stacking List holds each plane once with every guarded plane
above every unguarded one, at most 4 planes are guarded, every rectangle is valid, no run count exceeds its limit, the
Palette Store keeps the canonical form of log entry 20, and every edit staged or queued and every Scan Record is in range.
So does the output (R16, R40): a period that OUT_DE does not mark is (0, 0, 0), OUT_DE marks no blank, and it marks the
period just gone by exactly while the samples of its pixel are due. -/
def Obligations.PictureAndRangesAreKept : Prop :=
  ∀ s t : State, PictureLaw s → RangeLaw s → OutputLaw s → step s = .next t → PictureLaw t ∧ RangeLaw t ∧ OutputLaw t

/-- Ownership is kept (R2, R101, R118): every enabled plane has an owner, which holds the bank the plane names, and every owner
is a port that is Attached or Lapsing. -/
def Obligations.OwnershipIsKept : Prop :=
  ∀ s t : State, OwnershipLaw s → step s = .next t → OwnershipLaw t

/-- The capacities are kept (R52, R75, R77, R150): 96 records in the pool and 48 for a port, 8 batches in the queue and 4 for a
port, 16 notices and a dropped count up to 255, 8 history entries. -/
def Obligations.CapacitiesAreKept : Prop :=
  ∀ s t : State, CapacityLaw s → step s = .next t → CapacityLaw t

/-- Every port interface is in one of the states of Table 10.2, and a port is Executing exactly while one command of it is held
by the Timing Generator or the Commit Controller, never two (R160, R161, R165, R49, R74). -/
def Obligations.PortStatesAndCommandsInFlightAreKept : Prop :=
  ∀ s t : State, PortLaw s → InFlightLaw s → step s = .next t → PortLaw t ∧ InFlightLaw t

/-- The window and the reference keep their laws (R34, R38, R42, R46, R76, R78, R80, R82): no window is open and no new Scan
Record is pending in the active region, no window is open from blanking line V on, at most one batch is Applying and only
in stage (c), outside a window no batch is Applying or a member, the reference state is FREE exactly while follow is no. -/
def Obligations.WindowAndReferenceLawsAreKept : Prop :=
  ∀ s t : State, RangeLaw s → WindowLaw s → ReferenceLaw s → step s = .next t → WindowLaw t ∧ ReferenceLaw t

/-- Sessions keep their laws (R64, R66, R98, R101, R102, R104 to R106, R117): among them, a port that is not Attached has
nothing staged, nothing Queued and no lease, a lease that runs has not reached 0, a Detached port has no batch, every batch
is of its port's present session, and an empty Staged List has the check 0xFFFF. -/
def Obligations.SessionLawsAreKept : Prop :=
  ∀ s t : State, WindowLaw s → SessionLaw s → step s = .next t → SessionLaw t

/-- A batch that leaves the queue is taken out from wherever it stands, the others keep their order, and a batch that comes
stands at the tail (R75). -/
def Obligations.TheQueueKeepsItsOrder : Prop :=
  ∀ s t : State, step s = .next t →
    ∃ added : List Batch, added.length ≤ 1
      ∧ (t.queue.map fun b => (b.port, b.session, b.number, b.edits)).Sublist
          ((s.queue ++ added).map fun b => (b.port, b.session, b.number, b.edits))
end

