-- ==== Sys2Proof/Laws/Edits.lean ====
section
/-! SUPPORT. What validation's searches find, and where a plane put at the border of the bands goes, said once. -/

namespace Sys2Proof.Machine

/-! ### The searches of validation (Table 5.3) -/

/-- No edit touches what the port does not hold. -/
theorem firstNotHeld_eq_none {s : State} {p : Port} {i : Nat} {edits : List Edit} :
    firstNotHeld s p i edits = none ↔ ∀ e ∈ edits, ∀ r, e.touched = some r → (s.claimOf r).owner = some p := by
  induction edits generalizing i with
  | nil => simp [firstNotHeld]
  | cons e rest ih =>
    unfold firstNotHeld
    cases h : e.touched with
    | none => simp [ih, h]
    | some r =>
      by_cases ho : (s.claimOf r).owner = some p
      · simp [ho, ih, h]
      · simp [ho, h]

/-- The first edit that touches what the port does not hold, in a list split at it. -/
theorem firstNotHeld_split {s : State} {p : Port} {l r : List Edit} {e : Edit} {x : Resource} (i : Nat)
    (hl : ∀ e' ∈ l, ∀ y, e'.touched = some y → (s.claimOf y).owner = some p) (hx : e.touched = some x)
    (hn : (s.claimOf x).owner ≠ some p) : firstNotHeld s p i (l ++ e :: r) = some (i + l.length, x) := by
  induction l generalizing i with
  | nil => simp [firstNotHeld, hx, hn]
  | cons a rest ih =>
    have h := ih (i + 1) fun e' he => hl e' (by simp [he])
    rw [List.cons_append, firstNotHeld]
    cases ha : a.touched with
    | none => simp [h]; omega
    | some y => simp [hl a (by simp) y ha, h]; omega

/-- No edit is selected. -/
theorem firstOfLasts_eq_none {sel : Edit → Option Plane} {i : Nat} {edits : List Edit} :
    firstOfLasts sel i edits = none ↔ ∀ e ∈ edits, sel e = none := by
  induction edits generalizing i with
  | nil => simp [firstOfLasts]
  | cons e rest ih =>
    unfold firstOfLasts
    cases h : sel e with
    | none => simp [ih, h]
    | some p =>
      simp only
      by_cases hl : (rest.any fun e' => sel e' == some p) = true
      · rw [if_pos hl, ih]
        simp only [List.any_eq_true, beq_iff_eq] at hl
        obtain ⟨x, hx, hs⟩ := hl
        constructor
        · intro hh
          rw [hh x hx] at hs
          cases hs
        · exact fun hh e' he' => hh e' (by simp [he'])
      · rw [if_neg hl]
        simp [h]

/-- The first of the last edits selected for their planes, in a list split at it. -/
theorem firstOfLasts_split {sel : Edit → Option Plane} {l r : List Edit} {e : Edit} {q : Plane} (i : Nat)
    (h : sel e = some q) (hr : ∀ e' ∈ r, sel e' ≠ some q)
    (hl : ∀ u x v k, l = u ++ x :: v → sel x = some k → ∃ e' ∈ v ++ e :: r, sel e' = some k) :
    firstOfLasts sel i (l ++ e :: r) = some (i + l.length, q) := by
  induction l generalizing i with
  | nil =>
    rw [List.nil_append, firstOfLasts, h]
    simp only
    rw [if_neg (by simpa using hr)]
    rfl
  | cons a rest ih =>
    have hrest := ih (i + 1) fun u x v k he => hl (a :: u) x v k (by simp [he])
    rw [List.cons_append, firstOfLasts]
    cases ha : sel a with
    | none => simp [hrest]; omega
    | some k =>
      obtain ⟨e', he', hs⟩ := hl [] a rest k rfl ha
      simp only
      rw [if_pos (by rw [List.any_eq_true]; exact ⟨e', he', by simp [hs]⟩), hrest]
      simp
      omega

/-! ### The bands (R7, R8) -/

/-- A list of two bands cut at their border. -/
theorem bands_split {guarded : Plane → Bool} {low high : List Plane} (hl : ∀ q ∈ low, guarded q = false)
    (hh : ∀ q ∈ high, guarded q = true) :
    (low ++ high).takeWhile (fun q => !guarded q) = low ∧ (low ++ high).dropWhile (fun q => !guarded q) = high := by
  induction low with
  | nil =>
    cases high with
    | nil => simp
    | cons a rest => simp [hh a (by simp)]
  | cons a rest ih =>
    have h := ih fun q hq => hl q (by simp [hq])
    simp [hl a (by simp), h]

/-- A plane put at the border of two bands. -/
theorem placeAtBorder_bands {guarded : Plane → Bool} {low high : List Plane} (p : Plane)
    (hl : ∀ q ∈ low, guarded q = false) (hh : ∀ q ∈ high, guarded q = true) :
    placeAtBorder guarded p (low ++ high) = low ++ p :: high := by
  unfold placeAtBorder
  rw [(bands_split hl hh).1, (bands_split hl hh).2]

end Sys2Proof.Machine
end

