-- ==== Sys2Proof/Laws/Operands.lean ====
section
/-! SUPPORT. Reading back the bytes of the small operands. -/

namespace Sys2Proof.Machine

theorem byteOf_toNat {n : Nat} (h : n < 256) : (byteOf n).toNat = n := by
  simp only [byteOf, BitVec.toNat_ofNat]
  omega

theorem planeOf_byteOf (p : Plane) : planeOf (byteOf p.val) = some p := by revert p; decide

theorem bankOf_byteOf (b : Bank) : bankOf (byteOf b.val) = some b := by revert b; decide

theorem portOf_byteOf (p : Port) : portOf (byteOf p.val) = some p := by revert p; decide

theorem planeOf_eq_some {n : Byte} {p : Plane} : planeOf n = some p ↔ n = byteOf p.val := by
  constructor
  · intro h
    unfold planeOf at h
    split at h
    · cases h
      exact (BitVec.ofNat_toNat 8 n).symm
    · cases h
  · rintro rfl
    exact planeOf_byteOf p

theorem bankOf_eq_some {n : Byte} {b : Bank} : bankOf n = some b ↔ n = byteOf b.val := by
  constructor
  · intro h
    unfold bankOf at h
    split at h
    · cases h
      exact (BitVec.ofNat_toNat 8 n).symm
    · cases h
  · rintro rfl
    exact bankOf_byteOf b

theorem portOf_eq_some {n : Byte} {p : Port} : portOf n = some p ↔ n = byteOf p.val := by
  constructor
  · intro h
    unfold portOf at h
    split at h
    · cases h
      exact (BitVec.ofNat_toNat 8 n).symm
    · cases h
  · rintro rfl
    exact portOf_byteOf p

theorem flagOf_flagByte (b : Bool) : flagOf (flagByte b) = some b := by cases b <;> rfl

/-- Kind and number name a resource exactly when they are its bytes. -/
theorem resourceOf_eq_some {kind number : Byte} {r : Resource} :
    resourceOf kind number = some r ↔ [kind, number] = r.bytes := by
  unfold resourceOf
  by_cases h0 : kind = 0
  · rw [if_pos h0]
    cases r with
    | plane p => simp [Resource.bytes, h0, planeOf_eq_some]
    | bank b => simp [Resource.bytes, h0]
  · rw [if_neg h0]
    by_cases h1 : kind = 1
    · rw [if_pos h1]
      cases r with
      | plane p => simp [Resource.bytes, h1]
      | bank b => simp [Resource.bytes, h1, bankOf_eq_some]
    · rw [if_neg h1]
      cases r with
      | plane p => simpa [Resource.bytes] using fun h => absurd h h0
      | bank b => simpa [Resource.bytes] using fun h => absurd h h1

/-! ### The payloads, written out (Tables 11.1 and 11.2) -/

/-- The bytes of a run of colours. -/
theorem coloursBytes_eq_flatMap (cs : List Colour) : coloursBytes cs = cs.flatMap Colour.bytes := by
  induction cs with
  | nil => rfl
  | cons c rest ih => rw [coloursBytes, ih, List.flatMap_cons]

/-- A present part's bytes. -/
theorem partBytes_eq_elim {α : Type} (bytes : α → List Byte) (o : Option α) : partBytes bytes o = o.elim [] bytes := by
  cases o <;> rfl

/-- A bit of a present mask. -/
theorem maskBit_eq {α : Type} (v : Byte) (o : Option α) : maskBit v o = if o.isSome then v else 0 := by
  cases o <;> rfl

/-- The bits of a PLANE mask do not overlap. -/
theorem planeMask_eq_sum : ∀ a b c d e f : Bool,
    ((if a then 1 else 0) ||| (if b then 2 else 0) ||| (if c then 4 else 0) ||| (if d then 8 else 0)
      ||| (if e then 16 else 0) ||| (if f then 32 else 0) : Byte)
    = (if a then 1 else 0) + (if b then 2 else 0) + (if c then 4 else 0) + (if d then 8 else 0)
      + (if e then 16 else 0) + (if f then 32 else 0) := by decide

/-- The bits of a SCAN mask do not overlap. -/
theorem scanMask_eq_sum : ∀ a b c d e f g h : Bool,
    ((if a then 1 else 0) ||| (if b then 2 else 0) ||| (if c then 4 else 0) ||| (if d then 8 else 0)
      ||| (if e then 16 else 0) ||| (if f then 32 else 0) ||| (if g then 64 else 0) ||| (if h then 128 else 0) : Byte)
    = (if a then 1 else 0) + (if b then 2 else 0) + (if c then 4 else 0) + (if d then 8 else 0)
      + (if e then 16 else 0) + (if f then 32 else 0) + (if g then 64 else 0) + (if h then 128 else 0) := by decide

end Sys2Proof.Machine
end

