-- ==== Sys2Proof/Laws/State.lean ====
section
/-! SUPPORT. What each update of the state leaves as it was, field by field, and what reading after it gives. -/

namespace Sys2Proof.Machine

/-! ### setCpi -/

@[simp] theorem State.setCpi_nreset (s : State) (p : Port) (c : Cpi) : (s.setCpi p c).nreset = s.nreset := (rfl)
@[simp] theorem State.setCpi_addrsel (s : State) (p : Port) (c : Cpi) : (s.setCpi p c).addrsel = s.addrsel := (rfl)
@[simp] theorem State.setCpi_supsel (s : State) (p : Port) (c : Cpi) : (s.setCpi p c).supsel = s.supsel := (rfl)
@[simp] theorem State.setCpi_notices (s : State) (p : Port) (c : Cpi) : (s.setCpi p c).notices = s.notices := (rfl)
@[simp] theorem State.setCpi_sessions (s : State) (p : Port) (c : Cpi) : (s.setCpi p c).sessions = s.sessions := (rfl)
@[simp] theorem State.setCpi_planeClaims (s : State) (p : Port) (c : Cpi) : (s.setCpi p c).planeClaims = s.planeClaims := (rfl)
@[simp] theorem State.setCpi_bankClaims (s : State) (p : Port) (c : Cpi) : (s.setCpi p c).bankClaims = s.bankClaims := (rfl)
@[simp] theorem State.setCpi_staging (s : State) (p : Port) (c : Cpi) : (s.setCpi p c).staging = s.staging := (rfl)
@[simp] theorem State.setCpi_queue (s : State) (p : Port) (c : Cpi) : (s.setCpi p c).queue = s.queue := (rfl)
@[simp] theorem State.setCpi_window (s : State) (p : Port) (c : Cpi) : (s.setCpi p c).window = s.window := (rfl)
@[simp] theorem State.setCpi_histories (s : State) (p : Port) (c : Cpi) : (s.setCpi p c).histories = s.histories := (rfl)
@[simp] theorem State.setCpi_nextBatch (s : State) (p : Port) (c : Cpi) : (s.setCpi p c).nextBatch = s.nextBatch := (rfl)
@[simp] theorem State.setCpi_live (s : State) (p : Port) (c : Cpi) : (s.setCpi p c).live = s.live := (rfl)
@[simp] theorem State.setCpi_timing (s : State) (p : Port) (c : Cpi) : (s.setCpi p c).timing = s.timing := (rfl)
@[simp] theorem State.setCpi_compose (s : State) (p : Port) (c : Cpi) : (s.setCpi p c).compose = s.compose := (rfl)
@[simp] theorem State.setCpi_monitor (s : State) (p : Port) (c : Cpi) : (s.setCpi p c).monitor = s.monitor := (rfl)
@[simp] theorem State.setCpi_freeIndex (s : State) (p : Port) (c : Cpi) : (s.setCpi p c).freeIndex = s.freeIndex := (rfl)
@[simp] theorem State.setCpi_pending (s : State) (p : Port) (c : Cpi) : (s.setCpi p c).pending = s.pending := (rfl)
@[simp] theorem State.setCpi_noticeQueue (s : State) (p : Port) (c : Cpi) (k : Port) : (s.setCpi p c).noticeQueue k = s.noticeQueue k := (rfl)
@[simp] theorem State.setCpi_session (s : State) (p : Port) (c : Cpi) (k : Port) : (s.setCpi p c).session k = s.session k := (rfl)
@[simp] theorem State.setCpi_staged (s : State) (p : Port) (c : Cpi) (k : Port) : (s.setCpi p c).staged k = s.staged k := (rfl)
@[simp] theorem State.setCpi_history (s : State) (p : Port) (c : Cpi) (k : Port) : (s.setCpi p c).history k = s.history k := (rfl)
@[simp] theorem State.setCpi_planeOwner (s : State) (p : Port) (c : Cpi) (k : Plane) : (s.setCpi p c).planeOwner k = s.planeOwner k := (rfl)
@[simp] theorem State.setCpi_bankOwner (s : State) (p : Port) (c : Cpi) (k : Bank) : (s.setCpi p c).bankOwner k = s.bankOwner k := (rfl)

/-! ### setNotices -/

@[simp] theorem State.setNotices_nreset (s : State) (p : Port) (q : NoticeQueue) : (s.setNotices p q).nreset = s.nreset := (rfl)
@[simp] theorem State.setNotices_addrsel (s : State) (p : Port) (q : NoticeQueue) : (s.setNotices p q).addrsel = s.addrsel := (rfl)
@[simp] theorem State.setNotices_supsel (s : State) (p : Port) (q : NoticeQueue) : (s.setNotices p q).supsel = s.supsel := (rfl)
@[simp] theorem State.setNotices_cpis (s : State) (p : Port) (q : NoticeQueue) : (s.setNotices p q).cpis = s.cpis := (rfl)
@[simp] theorem State.setNotices_sessions (s : State) (p : Port) (q : NoticeQueue) : (s.setNotices p q).sessions = s.sessions := (rfl)
@[simp] theorem State.setNotices_planeClaims (s : State) (p : Port) (q : NoticeQueue) : (s.setNotices p q).planeClaims = s.planeClaims := (rfl)
@[simp] theorem State.setNotices_bankClaims (s : State) (p : Port) (q : NoticeQueue) : (s.setNotices p q).bankClaims = s.bankClaims := (rfl)
@[simp] theorem State.setNotices_staging (s : State) (p : Port) (q : NoticeQueue) : (s.setNotices p q).staging = s.staging := (rfl)
@[simp] theorem State.setNotices_queue (s : State) (p : Port) (q : NoticeQueue) : (s.setNotices p q).queue = s.queue := (rfl)
@[simp] theorem State.setNotices_window (s : State) (p : Port) (q : NoticeQueue) : (s.setNotices p q).window = s.window := (rfl)
@[simp] theorem State.setNotices_histories (s : State) (p : Port) (q : NoticeQueue) : (s.setNotices p q).histories = s.histories := (rfl)
@[simp] theorem State.setNotices_nextBatch (s : State) (p : Port) (q : NoticeQueue) : (s.setNotices p q).nextBatch = s.nextBatch := (rfl)
@[simp] theorem State.setNotices_live (s : State) (p : Port) (q : NoticeQueue) : (s.setNotices p q).live = s.live := (rfl)
@[simp] theorem State.setNotices_timing (s : State) (p : Port) (q : NoticeQueue) : (s.setNotices p q).timing = s.timing := (rfl)
@[simp] theorem State.setNotices_compose (s : State) (p : Port) (q : NoticeQueue) : (s.setNotices p q).compose = s.compose := (rfl)
@[simp] theorem State.setNotices_monitor (s : State) (p : Port) (q : NoticeQueue) : (s.setNotices p q).monitor = s.monitor := (rfl)
@[simp] theorem State.setNotices_freeIndex (s : State) (p : Port) (q : NoticeQueue) : (s.setNotices p q).freeIndex = s.freeIndex := (rfl)
@[simp] theorem State.setNotices_pending (s : State) (p : Port) (q : NoticeQueue) : (s.setNotices p q).pending = s.pending := (rfl)
@[simp] theorem State.setNotices_cpi (s : State) (p : Port) (q : NoticeQueue) (k : Port) : (s.setNotices p q).cpi k = s.cpi k := (rfl)
@[simp] theorem State.setNotices_session (s : State) (p : Port) (q : NoticeQueue) (k : Port) : (s.setNotices p q).session k = s.session k := (rfl)
@[simp] theorem State.setNotices_staged (s : State) (p : Port) (q : NoticeQueue) (k : Port) : (s.setNotices p q).staged k = s.staged k := (rfl)
@[simp] theorem State.setNotices_history (s : State) (p : Port) (q : NoticeQueue) (k : Port) : (s.setNotices p q).history k = s.history k := (rfl)
@[simp] theorem State.setNotices_planeOwner (s : State) (p : Port) (q : NoticeQueue) (k : Plane) : (s.setNotices p q).planeOwner k = s.planeOwner k := (rfl)
@[simp] theorem State.setNotices_bankOwner (s : State) (p : Port) (q : NoticeQueue) (k : Bank) : (s.setNotices p q).bankOwner k = s.bankOwner k := (rfl)

/-! ### setSession -/

@[simp] theorem State.setSession_nreset (s : State) (p : Port) (x : Session) : (s.setSession p x).nreset = s.nreset := (rfl)
@[simp] theorem State.setSession_addrsel (s : State) (p : Port) (x : Session) : (s.setSession p x).addrsel = s.addrsel := (rfl)
@[simp] theorem State.setSession_supsel (s : State) (p : Port) (x : Session) : (s.setSession p x).supsel = s.supsel := (rfl)
@[simp] theorem State.setSession_cpis (s : State) (p : Port) (x : Session) : (s.setSession p x).cpis = s.cpis := (rfl)
@[simp] theorem State.setSession_notices (s : State) (p : Port) (x : Session) : (s.setSession p x).notices = s.notices := (rfl)
@[simp] theorem State.setSession_planeClaims (s : State) (p : Port) (x : Session) : (s.setSession p x).planeClaims = s.planeClaims := (rfl)
@[simp] theorem State.setSession_bankClaims (s : State) (p : Port) (x : Session) : (s.setSession p x).bankClaims = s.bankClaims := (rfl)
@[simp] theorem State.setSession_staging (s : State) (p : Port) (x : Session) : (s.setSession p x).staging = s.staging := (rfl)
@[simp] theorem State.setSession_queue (s : State) (p : Port) (x : Session) : (s.setSession p x).queue = s.queue := (rfl)
@[simp] theorem State.setSession_window (s : State) (p : Port) (x : Session) : (s.setSession p x).window = s.window := (rfl)
@[simp] theorem State.setSession_histories (s : State) (p : Port) (x : Session) : (s.setSession p x).histories = s.histories := (rfl)
@[simp] theorem State.setSession_nextBatch (s : State) (p : Port) (x : Session) : (s.setSession p x).nextBatch = s.nextBatch := (rfl)
@[simp] theorem State.setSession_live (s : State) (p : Port) (x : Session) : (s.setSession p x).live = s.live := (rfl)
@[simp] theorem State.setSession_timing (s : State) (p : Port) (x : Session) : (s.setSession p x).timing = s.timing := (rfl)
@[simp] theorem State.setSession_compose (s : State) (p : Port) (x : Session) : (s.setSession p x).compose = s.compose := (rfl)
@[simp] theorem State.setSession_monitor (s : State) (p : Port) (x : Session) : (s.setSession p x).monitor = s.monitor := (rfl)
@[simp] theorem State.setSession_freeIndex (s : State) (p : Port) (x : Session) : (s.setSession p x).freeIndex = s.freeIndex := (rfl)
@[simp] theorem State.setSession_pending (s : State) (p : Port) (x : Session) : (s.setSession p x).pending = s.pending := (rfl)
@[simp] theorem State.setSession_cpi (s : State) (p : Port) (x : Session) (k : Port) : (s.setSession p x).cpi k = s.cpi k := (rfl)
@[simp] theorem State.setSession_noticeQueue (s : State) (p : Port) (x : Session) (k : Port) : (s.setSession p x).noticeQueue k = s.noticeQueue k := (rfl)
@[simp] theorem State.setSession_staged (s : State) (p : Port) (x : Session) (k : Port) : (s.setSession p x).staged k = s.staged k := (rfl)
@[simp] theorem State.setSession_history (s : State) (p : Port) (x : Session) (k : Port) : (s.setSession p x).history k = s.history k := (rfl)
@[simp] theorem State.setSession_planeOwner (s : State) (p : Port) (x : Session) (k : Plane) : (s.setSession p x).planeOwner k = s.planeOwner k := (rfl)
@[simp] theorem State.setSession_bankOwner (s : State) (p : Port) (x : Session) (k : Bank) : (s.setSession p x).bankOwner k = s.bankOwner k := (rfl)

/-! ### setStaged -/

@[simp] theorem State.setStaged_nreset (s : State) (p : Port) (x : Staging) : (s.setStaged p x).nreset = s.nreset := (rfl)
@[simp] theorem State.setStaged_addrsel (s : State) (p : Port) (x : Staging) : (s.setStaged p x).addrsel = s.addrsel := (rfl)
@[simp] theorem State.setStaged_supsel (s : State) (p : Port) (x : Staging) : (s.setStaged p x).supsel = s.supsel := (rfl)
@[simp] theorem State.setStaged_cpis (s : State) (p : Port) (x : Staging) : (s.setStaged p x).cpis = s.cpis := (rfl)
@[simp] theorem State.setStaged_notices (s : State) (p : Port) (x : Staging) : (s.setStaged p x).notices = s.notices := (rfl)
@[simp] theorem State.setStaged_sessions (s : State) (p : Port) (x : Staging) : (s.setStaged p x).sessions = s.sessions := (rfl)
@[simp] theorem State.setStaged_planeClaims (s : State) (p : Port) (x : Staging) : (s.setStaged p x).planeClaims = s.planeClaims := (rfl)
@[simp] theorem State.setStaged_bankClaims (s : State) (p : Port) (x : Staging) : (s.setStaged p x).bankClaims = s.bankClaims := (rfl)
@[simp] theorem State.setStaged_queue (s : State) (p : Port) (x : Staging) : (s.setStaged p x).queue = s.queue := (rfl)
@[simp] theorem State.setStaged_window (s : State) (p : Port) (x : Staging) : (s.setStaged p x).window = s.window := (rfl)
@[simp] theorem State.setStaged_histories (s : State) (p : Port) (x : Staging) : (s.setStaged p x).histories = s.histories := (rfl)
@[simp] theorem State.setStaged_nextBatch (s : State) (p : Port) (x : Staging) : (s.setStaged p x).nextBatch = s.nextBatch := (rfl)
@[simp] theorem State.setStaged_live (s : State) (p : Port) (x : Staging) : (s.setStaged p x).live = s.live := (rfl)
@[simp] theorem State.setStaged_timing (s : State) (p : Port) (x : Staging) : (s.setStaged p x).timing = s.timing := (rfl)
@[simp] theorem State.setStaged_compose (s : State) (p : Port) (x : Staging) : (s.setStaged p x).compose = s.compose := (rfl)
@[simp] theorem State.setStaged_monitor (s : State) (p : Port) (x : Staging) : (s.setStaged p x).monitor = s.monitor := (rfl)
@[simp] theorem State.setStaged_freeIndex (s : State) (p : Port) (x : Staging) : (s.setStaged p x).freeIndex = s.freeIndex := (rfl)
@[simp] theorem State.setStaged_pending (s : State) (p : Port) (x : Staging) : (s.setStaged p x).pending = s.pending := (rfl)
@[simp] theorem State.setStaged_cpi (s : State) (p : Port) (x : Staging) (k : Port) : (s.setStaged p x).cpi k = s.cpi k := (rfl)
@[simp] theorem State.setStaged_noticeQueue (s : State) (p : Port) (x : Staging) (k : Port) : (s.setStaged p x).noticeQueue k = s.noticeQueue k := (rfl)
@[simp] theorem State.setStaged_session (s : State) (p : Port) (x : Staging) (k : Port) : (s.setStaged p x).session k = s.session k := (rfl)
@[simp] theorem State.setStaged_history (s : State) (p : Port) (x : Staging) (k : Port) : (s.setStaged p x).history k = s.history k := (rfl)
@[simp] theorem State.setStaged_planeOwner (s : State) (p : Port) (x : Staging) (k : Plane) : (s.setStaged p x).planeOwner k = s.planeOwner k := (rfl)
@[simp] theorem State.setStaged_bankOwner (s : State) (p : Port) (x : Staging) (k : Bank) : (s.setStaged p x).bankOwner k = s.bankOwner k := (rfl)

/-! ### setHistory -/

@[simp] theorem State.setHistory_nreset (s : State) (p : Port) (h : List HistoryEntry) : (s.setHistory p h).nreset = s.nreset := (rfl)
@[simp] theorem State.setHistory_addrsel (s : State) (p : Port) (h : List HistoryEntry) : (s.setHistory p h).addrsel = s.addrsel := (rfl)
@[simp] theorem State.setHistory_supsel (s : State) (p : Port) (h : List HistoryEntry) : (s.setHistory p h).supsel = s.supsel := (rfl)
@[simp] theorem State.setHistory_cpis (s : State) (p : Port) (h : List HistoryEntry) : (s.setHistory p h).cpis = s.cpis := (rfl)
@[simp] theorem State.setHistory_notices (s : State) (p : Port) (h : List HistoryEntry) : (s.setHistory p h).notices = s.notices := (rfl)
@[simp] theorem State.setHistory_sessions (s : State) (p : Port) (h : List HistoryEntry) : (s.setHistory p h).sessions = s.sessions := (rfl)
@[simp] theorem State.setHistory_planeClaims (s : State) (p : Port) (h : List HistoryEntry) : (s.setHistory p h).planeClaims = s.planeClaims := (rfl)
@[simp] theorem State.setHistory_bankClaims (s : State) (p : Port) (h : List HistoryEntry) : (s.setHistory p h).bankClaims = s.bankClaims := (rfl)
@[simp] theorem State.setHistory_staging (s : State) (p : Port) (h : List HistoryEntry) : (s.setHistory p h).staging = s.staging := (rfl)
@[simp] theorem State.setHistory_queue (s : State) (p : Port) (h : List HistoryEntry) : (s.setHistory p h).queue = s.queue := (rfl)
@[simp] theorem State.setHistory_window (s : State) (p : Port) (h : List HistoryEntry) : (s.setHistory p h).window = s.window := (rfl)
@[simp] theorem State.setHistory_nextBatch (s : State) (p : Port) (h : List HistoryEntry) : (s.setHistory p h).nextBatch = s.nextBatch := (rfl)
@[simp] theorem State.setHistory_live (s : State) (p : Port) (h : List HistoryEntry) : (s.setHistory p h).live = s.live := (rfl)
@[simp] theorem State.setHistory_timing (s : State) (p : Port) (h : List HistoryEntry) : (s.setHistory p h).timing = s.timing := (rfl)
@[simp] theorem State.setHistory_compose (s : State) (p : Port) (h : List HistoryEntry) : (s.setHistory p h).compose = s.compose := (rfl)
@[simp] theorem State.setHistory_monitor (s : State) (p : Port) (h : List HistoryEntry) : (s.setHistory p h).monitor = s.monitor := (rfl)
@[simp] theorem State.setHistory_freeIndex (s : State) (p : Port) (h : List HistoryEntry) : (s.setHistory p h).freeIndex = s.freeIndex := (rfl)
@[simp] theorem State.setHistory_pending (s : State) (p : Port) (h : List HistoryEntry) : (s.setHistory p h).pending = s.pending := (rfl)
@[simp] theorem State.setHistory_cpi (s : State) (p : Port) (h : List HistoryEntry) (k : Port) : (s.setHistory p h).cpi k = s.cpi k := (rfl)
@[simp] theorem State.setHistory_noticeQueue (s : State) (p : Port) (h : List HistoryEntry) (k : Port) : (s.setHistory p h).noticeQueue k = s.noticeQueue k := (rfl)
@[simp] theorem State.setHistory_session (s : State) (p : Port) (h : List HistoryEntry) (k : Port) : (s.setHistory p h).session k = s.session k := (rfl)
@[simp] theorem State.setHistory_staged (s : State) (p : Port) (h : List HistoryEntry) (k : Port) : (s.setHistory p h).staged k = s.staged k := (rfl)
@[simp] theorem State.setHistory_planeOwner (s : State) (p : Port) (h : List HistoryEntry) (k : Plane) : (s.setHistory p h).planeOwner k = s.planeOwner k := (rfl)
@[simp] theorem State.setHistory_bankOwner (s : State) (p : Port) (h : List HistoryEntry) (k : Bank) : (s.setHistory p h).bankOwner k = s.bankOwner k := (rfl)

/-! ### setNextBatch -/

@[simp] theorem State.setNextBatch_nreset (s : State) (p : Port) (n : Byte) : (s.setNextBatch p n).nreset = s.nreset := (rfl)
@[simp] theorem State.setNextBatch_addrsel (s : State) (p : Port) (n : Byte) : (s.setNextBatch p n).addrsel = s.addrsel := (rfl)
@[simp] theorem State.setNextBatch_supsel (s : State) (p : Port) (n : Byte) : (s.setNextBatch p n).supsel = s.supsel := (rfl)
@[simp] theorem State.setNextBatch_cpis (s : State) (p : Port) (n : Byte) : (s.setNextBatch p n).cpis = s.cpis := (rfl)
@[simp] theorem State.setNextBatch_notices (s : State) (p : Port) (n : Byte) : (s.setNextBatch p n).notices = s.notices := (rfl)
@[simp] theorem State.setNextBatch_sessions (s : State) (p : Port) (n : Byte) : (s.setNextBatch p n).sessions = s.sessions := (rfl)
@[simp] theorem State.setNextBatch_planeClaims (s : State) (p : Port) (n : Byte) : (s.setNextBatch p n).planeClaims = s.planeClaims := (rfl)
@[simp] theorem State.setNextBatch_bankClaims (s : State) (p : Port) (n : Byte) : (s.setNextBatch p n).bankClaims = s.bankClaims := (rfl)
@[simp] theorem State.setNextBatch_staging (s : State) (p : Port) (n : Byte) : (s.setNextBatch p n).staging = s.staging := (rfl)
@[simp] theorem State.setNextBatch_queue (s : State) (p : Port) (n : Byte) : (s.setNextBatch p n).queue = s.queue := (rfl)
@[simp] theorem State.setNextBatch_window (s : State) (p : Port) (n : Byte) : (s.setNextBatch p n).window = s.window := (rfl)
@[simp] theorem State.setNextBatch_histories (s : State) (p : Port) (n : Byte) : (s.setNextBatch p n).histories = s.histories := (rfl)
@[simp] theorem State.setNextBatch_live (s : State) (p : Port) (n : Byte) : (s.setNextBatch p n).live = s.live := (rfl)
@[simp] theorem State.setNextBatch_timing (s : State) (p : Port) (n : Byte) : (s.setNextBatch p n).timing = s.timing := (rfl)
@[simp] theorem State.setNextBatch_compose (s : State) (p : Port) (n : Byte) : (s.setNextBatch p n).compose = s.compose := (rfl)
@[simp] theorem State.setNextBatch_monitor (s : State) (p : Port) (n : Byte) : (s.setNextBatch p n).monitor = s.monitor := (rfl)
@[simp] theorem State.setNextBatch_freeIndex (s : State) (p : Port) (n : Byte) : (s.setNextBatch p n).freeIndex = s.freeIndex := (rfl)
@[simp] theorem State.setNextBatch_pending (s : State) (p : Port) (n : Byte) : (s.setNextBatch p n).pending = s.pending := (rfl)
@[simp] theorem State.setNextBatch_cpi (s : State) (p : Port) (n : Byte) (k : Port) : (s.setNextBatch p n).cpi k = s.cpi k := (rfl)
@[simp] theorem State.setNextBatch_noticeQueue (s : State) (p : Port) (n : Byte) (k : Port) : (s.setNextBatch p n).noticeQueue k = s.noticeQueue k := (rfl)
@[simp] theorem State.setNextBatch_session (s : State) (p : Port) (n : Byte) (k : Port) : (s.setNextBatch p n).session k = s.session k := (rfl)
@[simp] theorem State.setNextBatch_staged (s : State) (p : Port) (n : Byte) (k : Port) : (s.setNextBatch p n).staged k = s.staged k := (rfl)
@[simp] theorem State.setNextBatch_history (s : State) (p : Port) (n : Byte) (k : Port) : (s.setNextBatch p n).history k = s.history k := (rfl)
@[simp] theorem State.setNextBatch_planeOwner (s : State) (p : Port) (n : Byte) (k : Plane) : (s.setNextBatch p n).planeOwner k = s.planeOwner k := (rfl)
@[simp] theorem State.setNextBatch_bankOwner (s : State) (p : Port) (n : Byte) (k : Bank) : (s.setNextBatch p n).bankOwner k = s.bankOwner k := (rfl)

/-! ### setPlaneClaim -/

@[simp] theorem State.setPlaneClaim_nreset (s : State) (p : Plane) (c : Claim) : (s.setPlaneClaim p c).nreset = s.nreset := (rfl)
@[simp] theorem State.setPlaneClaim_addrsel (s : State) (p : Plane) (c : Claim) : (s.setPlaneClaim p c).addrsel = s.addrsel := (rfl)
@[simp] theorem State.setPlaneClaim_supsel (s : State) (p : Plane) (c : Claim) : (s.setPlaneClaim p c).supsel = s.supsel := (rfl)
@[simp] theorem State.setPlaneClaim_cpis (s : State) (p : Plane) (c : Claim) : (s.setPlaneClaim p c).cpis = s.cpis := (rfl)
@[simp] theorem State.setPlaneClaim_notices (s : State) (p : Plane) (c : Claim) : (s.setPlaneClaim p c).notices = s.notices := (rfl)
@[simp] theorem State.setPlaneClaim_sessions (s : State) (p : Plane) (c : Claim) : (s.setPlaneClaim p c).sessions = s.sessions := (rfl)
@[simp] theorem State.setPlaneClaim_bankClaims (s : State) (p : Plane) (c : Claim) : (s.setPlaneClaim p c).bankClaims = s.bankClaims := (rfl)
@[simp] theorem State.setPlaneClaim_staging (s : State) (p : Plane) (c : Claim) : (s.setPlaneClaim p c).staging = s.staging := (rfl)
@[simp] theorem State.setPlaneClaim_queue (s : State) (p : Plane) (c : Claim) : (s.setPlaneClaim p c).queue = s.queue := (rfl)
@[simp] theorem State.setPlaneClaim_window (s : State) (p : Plane) (c : Claim) : (s.setPlaneClaim p c).window = s.window := (rfl)
@[simp] theorem State.setPlaneClaim_histories (s : State) (p : Plane) (c : Claim) : (s.setPlaneClaim p c).histories = s.histories := (rfl)
@[simp] theorem State.setPlaneClaim_nextBatch (s : State) (p : Plane) (c : Claim) : (s.setPlaneClaim p c).nextBatch = s.nextBatch := (rfl)
@[simp] theorem State.setPlaneClaim_live (s : State) (p : Plane) (c : Claim) : (s.setPlaneClaim p c).live = s.live := (rfl)
@[simp] theorem State.setPlaneClaim_timing (s : State) (p : Plane) (c : Claim) : (s.setPlaneClaim p c).timing = s.timing := (rfl)
@[simp] theorem State.setPlaneClaim_compose (s : State) (p : Plane) (c : Claim) : (s.setPlaneClaim p c).compose = s.compose := (rfl)
@[simp] theorem State.setPlaneClaim_monitor (s : State) (p : Plane) (c : Claim) : (s.setPlaneClaim p c).monitor = s.monitor := (rfl)
@[simp] theorem State.setPlaneClaim_freeIndex (s : State) (p : Plane) (c : Claim) : (s.setPlaneClaim p c).freeIndex = s.freeIndex := (rfl)
@[simp] theorem State.setPlaneClaim_pending (s : State) (p : Plane) (c : Claim) : (s.setPlaneClaim p c).pending = s.pending := (rfl)
@[simp] theorem State.setPlaneClaim_cpi (s : State) (p : Plane) (c : Claim) (k : Port) : (s.setPlaneClaim p c).cpi k = s.cpi k := (rfl)
@[simp] theorem State.setPlaneClaim_noticeQueue (s : State) (p : Plane) (c : Claim) (k : Port) : (s.setPlaneClaim p c).noticeQueue k = s.noticeQueue k := (rfl)
@[simp] theorem State.setPlaneClaim_session (s : State) (p : Plane) (c : Claim) (k : Port) : (s.setPlaneClaim p c).session k = s.session k := (rfl)
@[simp] theorem State.setPlaneClaim_staged (s : State) (p : Plane) (c : Claim) (k : Port) : (s.setPlaneClaim p c).staged k = s.staged k := (rfl)
@[simp] theorem State.setPlaneClaim_history (s : State) (p : Plane) (c : Claim) (k : Port) : (s.setPlaneClaim p c).history k = s.history k := (rfl)
@[simp] theorem State.setPlaneClaim_bankOwner (s : State) (p : Plane) (c : Claim) (k : Bank) : (s.setPlaneClaim p c).bankOwner k = s.bankOwner k := (rfl)

/-! ### setBankClaim -/

@[simp] theorem State.setBankClaim_nreset (s : State) (b : Bank) (c : Claim) : (s.setBankClaim b c).nreset = s.nreset := (rfl)
@[simp] theorem State.setBankClaim_addrsel (s : State) (b : Bank) (c : Claim) : (s.setBankClaim b c).addrsel = s.addrsel := (rfl)
@[simp] theorem State.setBankClaim_supsel (s : State) (b : Bank) (c : Claim) : (s.setBankClaim b c).supsel = s.supsel := (rfl)
@[simp] theorem State.setBankClaim_cpis (s : State) (b : Bank) (c : Claim) : (s.setBankClaim b c).cpis = s.cpis := (rfl)
@[simp] theorem State.setBankClaim_notices (s : State) (b : Bank) (c : Claim) : (s.setBankClaim b c).notices = s.notices := (rfl)
@[simp] theorem State.setBankClaim_sessions (s : State) (b : Bank) (c : Claim) : (s.setBankClaim b c).sessions = s.sessions := (rfl)
@[simp] theorem State.setBankClaim_planeClaims (s : State) (b : Bank) (c : Claim) : (s.setBankClaim b c).planeClaims = s.planeClaims := (rfl)
@[simp] theorem State.setBankClaim_staging (s : State) (b : Bank) (c : Claim) : (s.setBankClaim b c).staging = s.staging := (rfl)
@[simp] theorem State.setBankClaim_queue (s : State) (b : Bank) (c : Claim) : (s.setBankClaim b c).queue = s.queue := (rfl)
@[simp] theorem State.setBankClaim_window (s : State) (b : Bank) (c : Claim) : (s.setBankClaim b c).window = s.window := (rfl)
@[simp] theorem State.setBankClaim_histories (s : State) (b : Bank) (c : Claim) : (s.setBankClaim b c).histories = s.histories := (rfl)
@[simp] theorem State.setBankClaim_nextBatch (s : State) (b : Bank) (c : Claim) : (s.setBankClaim b c).nextBatch = s.nextBatch := (rfl)
@[simp] theorem State.setBankClaim_live (s : State) (b : Bank) (c : Claim) : (s.setBankClaim b c).live = s.live := (rfl)
@[simp] theorem State.setBankClaim_timing (s : State) (b : Bank) (c : Claim) : (s.setBankClaim b c).timing = s.timing := (rfl)
@[simp] theorem State.setBankClaim_compose (s : State) (b : Bank) (c : Claim) : (s.setBankClaim b c).compose = s.compose := (rfl)
@[simp] theorem State.setBankClaim_monitor (s : State) (b : Bank) (c : Claim) : (s.setBankClaim b c).monitor = s.monitor := (rfl)
@[simp] theorem State.setBankClaim_freeIndex (s : State) (b : Bank) (c : Claim) : (s.setBankClaim b c).freeIndex = s.freeIndex := (rfl)
@[simp] theorem State.setBankClaim_pending (s : State) (b : Bank) (c : Claim) : (s.setBankClaim b c).pending = s.pending := (rfl)
@[simp] theorem State.setBankClaim_cpi (s : State) (b : Bank) (c : Claim) (k : Port) : (s.setBankClaim b c).cpi k = s.cpi k := (rfl)
@[simp] theorem State.setBankClaim_noticeQueue (s : State) (b : Bank) (c : Claim) (k : Port) : (s.setBankClaim b c).noticeQueue k = s.noticeQueue k := (rfl)
@[simp] theorem State.setBankClaim_session (s : State) (b : Bank) (c : Claim) (k : Port) : (s.setBankClaim b c).session k = s.session k := (rfl)
@[simp] theorem State.setBankClaim_staged (s : State) (b : Bank) (c : Claim) (k : Port) : (s.setBankClaim b c).staged k = s.staged k := (rfl)
@[simp] theorem State.setBankClaim_history (s : State) (b : Bank) (c : Claim) (k : Port) : (s.setBankClaim b c).history k = s.history k := (rfl)
@[simp] theorem State.setBankClaim_planeOwner (s : State) (b : Bank) (c : Claim) (k : Plane) : (s.setBankClaim b c).planeOwner k = s.planeOwner k := (rfl)

/-! ### setWaiter -/

@[simp] theorem State.setWaiter_nreset (s : State) (p : Port) (w : Option Waiter) : (s.setWaiter p w).nreset = s.nreset := (rfl)
@[simp] theorem State.setWaiter_addrsel (s : State) (p : Port) (w : Option Waiter) : (s.setWaiter p w).addrsel = s.addrsel := (rfl)
@[simp] theorem State.setWaiter_supsel (s : State) (p : Port) (w : Option Waiter) : (s.setWaiter p w).supsel = s.supsel := (rfl)
@[simp] theorem State.setWaiter_cpis (s : State) (p : Port) (w : Option Waiter) : (s.setWaiter p w).cpis = s.cpis := (rfl)
@[simp] theorem State.setWaiter_notices (s : State) (p : Port) (w : Option Waiter) : (s.setWaiter p w).notices = s.notices := (rfl)
@[simp] theorem State.setWaiter_sessions (s : State) (p : Port) (w : Option Waiter) : (s.setWaiter p w).sessions = s.sessions := (rfl)
@[simp] theorem State.setWaiter_planeClaims (s : State) (p : Port) (w : Option Waiter) : (s.setWaiter p w).planeClaims = s.planeClaims := (rfl)
@[simp] theorem State.setWaiter_bankClaims (s : State) (p : Port) (w : Option Waiter) : (s.setWaiter p w).bankClaims = s.bankClaims := (rfl)
@[simp] theorem State.setWaiter_staging (s : State) (p : Port) (w : Option Waiter) : (s.setWaiter p w).staging = s.staging := (rfl)
@[simp] theorem State.setWaiter_queue (s : State) (p : Port) (w : Option Waiter) : (s.setWaiter p w).queue = s.queue := (rfl)
@[simp] theorem State.setWaiter_window (s : State) (p : Port) (w : Option Waiter) : (s.setWaiter p w).window = s.window := (rfl)
@[simp] theorem State.setWaiter_histories (s : State) (p : Port) (w : Option Waiter) : (s.setWaiter p w).histories = s.histories := (rfl)
@[simp] theorem State.setWaiter_nextBatch (s : State) (p : Port) (w : Option Waiter) : (s.setWaiter p w).nextBatch = s.nextBatch := (rfl)
@[simp] theorem State.setWaiter_live (s : State) (p : Port) (w : Option Waiter) : (s.setWaiter p w).live = s.live := (rfl)
@[simp] theorem State.setWaiter_compose (s : State) (p : Port) (w : Option Waiter) : (s.setWaiter p w).compose = s.compose := (rfl)
@[simp] theorem State.setWaiter_monitor (s : State) (p : Port) (w : Option Waiter) : (s.setWaiter p w).monitor = s.monitor := (rfl)
@[simp] theorem State.setWaiter_freeIndex (s : State) (p : Port) (w : Option Waiter) : (s.setWaiter p w).freeIndex = s.freeIndex := (rfl)
@[simp] theorem State.setWaiter_pending (s : State) (p : Port) (w : Option Waiter) : (s.setWaiter p w).pending = s.pending := (rfl)
@[simp] theorem State.setWaiter_cpi (s : State) (p : Port) (w : Option Waiter) (k : Port) : (s.setWaiter p w).cpi k = s.cpi k := (rfl)
@[simp] theorem State.setWaiter_noticeQueue (s : State) (p : Port) (w : Option Waiter) (k : Port) : (s.setWaiter p w).noticeQueue k = s.noticeQueue k := (rfl)
@[simp] theorem State.setWaiter_session (s : State) (p : Port) (w : Option Waiter) (k : Port) : (s.setWaiter p w).session k = s.session k := (rfl)
@[simp] theorem State.setWaiter_staged (s : State) (p : Port) (w : Option Waiter) (k : Port) : (s.setWaiter p w).staged k = s.staged k := (rfl)
@[simp] theorem State.setWaiter_history (s : State) (p : Port) (w : Option Waiter) (k : Port) : (s.setWaiter p w).history k = s.history k := (rfl)
@[simp] theorem State.setWaiter_planeOwner (s : State) (p : Port) (w : Option Waiter) (k : Plane) : (s.setWaiter p w).planeOwner k = s.planeOwner k := (rfl)
@[simp] theorem State.setWaiter_bankOwner (s : State) (p : Port) (w : Option Waiter) (k : Bank) : (s.setWaiter p w).bankOwner k = s.bankOwner k := (rfl)

/-! ### Reading after an update -/

@[simp] theorem State.setCpi_cpi (s : State) (p : Port) (c : Cpi) (k : Port) :
    (s.setCpi p c).cpi k = if k = p then c else s.cpi k := by
  simp only [State.cpi, State.setCpi, Fin.getElem_fin, Vector.getElem_set, Fin.ext_iff, eq_comm]

@[simp] theorem State.setNotices_noticeQueue (s : State) (p : Port) (q : NoticeQueue) (k : Port) :
    (s.setNotices p q).noticeQueue k = if k = p then q else s.noticeQueue k := by
  simp only [State.noticeQueue, State.setNotices, Fin.getElem_fin, Vector.getElem_set, Fin.ext_iff, eq_comm]

@[simp] theorem State.setSession_session (s : State) (p : Port) (x : Session) (k : Port) :
    (s.setSession p x).session k = if k = p then x else s.session k := by
  simp only [State.session, State.setSession, Fin.getElem_fin, Vector.getElem_set, Fin.ext_iff, eq_comm]

@[simp] theorem State.setStaged_staged (s : State) (p : Port) (x : Staging) (k : Port) :
    (s.setStaged p x).staged k = if k = p then x else s.staged k := by
  simp only [State.staged, State.setStaged, Fin.getElem_fin, Vector.getElem_set, Fin.ext_iff, eq_comm]

@[simp] theorem State.setHistory_history (s : State) (p : Port) (h : List HistoryEntry) (k : Port) :
    (s.setHistory p h).history k = if k = p then h else s.history k := by
  simp only [State.history, State.setHistory, Fin.getElem_fin, Vector.getElem_set, Fin.ext_iff, eq_comm]

@[simp] theorem State.setPlaneClaim_planeOwner (s : State) (p : Plane) (c : Claim) (k : Plane) :
    (s.setPlaneClaim p c).planeOwner k = if k = p then c.owner else s.planeOwner k := by
  simp only [State.planeOwner, State.setPlaneClaim, Fin.getElem_fin, Vector.getElem_set, Fin.ext_iff, eq_comm]
  split <;> rfl

@[simp] theorem State.setBankClaim_bankOwner (s : State) (b : Bank) (c : Claim) (k : Bank) :
    (s.setBankClaim b c).bankOwner k = if k = b then c.owner else s.bankOwner k := by
  simp only [State.bankOwner, State.setBankClaim, Fin.getElem_fin, Vector.getElem_set, Fin.ext_iff, eq_comm]
  split <;> rfl

/-! ### An update made twice -/

/-- Of two writes to one place the later stands. -/
theorem vector_set_set {α : Type} {n : Nat} (v : Vector α n) (i : Fin n) (a b : α) :
    (v.set i a).set i b = v.set i b := by
  ext j h
  simp only [Vector.getElem_set]
  split <;> rfl

@[simp] theorem State.setCpi_setCpi (s : State) (p : Port) (c d : Cpi) : (s.setCpi p c).setCpi p d = s.setCpi p d := by
  simp only [State.setCpi, vector_set_set]

@[simp] theorem State.setSession_setSession (s : State) (p : Port) (x y : Session) :
    (s.setSession p x).setSession p y = s.setSession p y := by
  simp only [State.setSession, vector_set_set]

theorem vector_set_self {α : Type} {n : Nat} (v : Vector α n) (i : Fin n) : v.set i v[i] = v := by
  ext j h
  simp only [Vector.getElem_set, Fin.getElem_fin]
  split <;> simp_all

/-- Writing back what stands there changes nothing. -/
@[simp] theorem State.setCpi_self (s : State) (p : Port) : s.setCpi p (s.cpi p) = s := by
  simp only [State.setCpi, State.cpi, vector_set_self]

@[simp] theorem State.setNotices_self (s : State) (p : Port) : s.setNotices p (s.noticeQueue p) = s := by
  simp only [State.setNotices, State.noticeQueue, vector_set_self]

@[simp] theorem State.setSession_self (s : State) (p : Port) : s.setSession p (s.session p) = s := by
  simp only [State.setSession, State.session, vector_set_self]

@[simp] theorem State.setStaged_self (s : State) (p : Port) : s.setStaged p (s.staged p) = s := by
  simp only [State.setStaged, State.staged, vector_set_self]

end Sys2Proof.Machine
end

