-- ==== Sys2Proof/Laws/Ops.lean ====
section
/-! SUPPORT. What each shared operation can do, said once: posts, the lease, the arrival of a completion, lists. -/

namespace Sys2Proof.Machine

/-! ### Notices -/

/-- A post touches the port's Notice Queue and nothing else. -/
theorem State.post_eq (s : State) (p : Port) (n : Notice) :
    s.post p n = s.setNotices p
      (if (s.session p).state = .detached ∧ n.kind ≠ .sessionEnded then s.noticeQueue p
      else (s.noticeQueue p).take n) := by
  unfold State.post
  split <;> simp

/-- The states that differ from s at most in the Notice Queues. -/
def State.SameButQueues (s t : State) : Prop := ∃ v, t = { s with notices := v }

theorem State.SameButQueues.refl (s : State) : s.SameButQueues s := ⟨s.notices, rfl⟩

theorem State.SameButQueues.trans {s t u : State} (h : s.SameButQueues t) (k : t.SameButQueues u) : s.SameButQueues u := by
  obtain ⟨v, rfl⟩ := h
  obtain ⟨w, rfl⟩ := k
  exact ⟨w, rfl⟩

theorem State.sameButQueues_setNotices (s : State) (p : Port) (q : NoticeQueue) : s.SameButQueues (s.setNotices p q) :=
  ⟨_, rfl⟩

theorem State.sameButQueues_post (s : State) (p : Port) (n : Notice) : s.SameButQueues (s.post p n) := by
  rw [State.post_eq]
  exact s.sameButQueues_setNotices _ _

theorem State.sameButQueues_postAttached (s : State) (n : Notice) (p : Port) : s.SameButQueues (s.postAttached n p) := by
  unfold State.postAttached
  split
  · exact s.sameButQueues_post _ _
  · exact .refl s

theorem State.sameButQueues_postSupervisor (s : State) (n : Notice) : s.SameButQueues (s.postSupervisor n) := by
  unfold State.postSupervisor
  split
  · exact s.sameButQueues_post _ _
  · exact .refl s

/-- A run of operations each of which touches the Notice Queues alone touches them alone. -/
theorem State.sameButQueues_foldl {α : Type} (f : State → α → State) (h : ∀ s a, State.SameButQueues s (f s a))
    (l : List α) (s : State) : s.SameButQueues (l.foldl f s) := by
  induction l generalizing s with
  | nil => exact .refl s
  | cons a rest ih => exact (h s a).trans (ih (f s a))

/-- The queue after a post to the same port, or to another. -/
theorem State.post_noticeQueue (s : State) (p : Port) (n : Notice) (k : Port) :
    (s.post p n).noticeQueue k =
      if k = p ∧ ((s.session p).state ≠ .detached ∨ n.kind = .sessionEnded) then (s.noticeQueue p).take n
      else s.noticeQueue k := by
  rw [State.post_eq, State.setNotices_noticeQueue]
  by_cases hk : k = p
  · subst hk
    by_cases h : (s.session k).state = .detached ∧ n.kind ≠ .sessionEnded
    · rw [if_pos rfl, if_pos h, if_neg]
      rintro ⟨_, h' | h'⟩
      · exact h' h.1
      · exact h.2 h'
    · rw [if_pos rfl, if_neg h, if_pos]
      refine ⟨rfl, ?_⟩
      by_cases h1 : (s.session k).state = .detached
      · exact .inr (Decidable.byContradiction fun h2 => h ⟨h1, h2⟩)
      · exact .inl h1
  · rw [if_neg hk, if_neg fun h => hk h.1]

/-- A queue never grows beyond 16 records, nor its dropped count beyond 255. -/
theorem NoticeQueue.take_bounds {q : NoticeQueue} (n : Notice) (h : q.records.length ≤ 16) (d : q.dropped ≤ 255) :
    (q.take n).records.length ≤ 16 ∧ (q.take n).dropped ≤ 255 := by
  unfold NoticeQueue.take
  split
  · rename_i hl
    simp only [Config.noticeSize] at hl
    exact ⟨by simp; omega, d⟩
  · exact ⟨h, by simp only; split <;> omega⟩

/-! ### The lease and the arrival of a completion -/

/-- The restart of the lease touches the port's session and nothing else. -/
theorem State.restartLease_eq (s : State) (p : Port) :
    s.restartLease p = s.setSession p
      (if (s.session p).state = .attached then { s.session p with remaining := (s.session p).interval }
      else s.session p) := by
  unfold State.restartLease State.isAttached
  by_cases h : (s.session p).state = .attached
  · simp [h]
  · simp [h]

/-- The arrival of a completion touches the port's CPI and its session, and nothing else (R165, R106). -/
theorem State.complete_eq (s : State) (p : Port) (k : Completion) (payload : List Byte) :
    s.complete p k payload =
      if (s.cpi p).state = .executing then
        (s.setCpi p ((s.cpi p).completed k payload)).setSession p
          (if (s.session p).state = .attached then { s.session p with remaining := (s.session p).interval }
          else s.session p)
      else s := by
  unfold State.complete
  split
  · rw [State.restartLease_eq, State.setCpi_session]
  · rfl

/-- A completion for a port that is not Executing is none. -/
theorem State.complete_of_not_executing {s : State} {p : Port} (h : (s.cpi p).state ≠ .executing) (k : Completion)
    (payload : List Byte) : s.complete p k payload = s := by
  rw [State.complete_eq, if_neg h]

/-! ### Lists -/

/-- The first element for which f holds, in a list split at it. -/
theorem find?_split {α : Type} {f : α → Bool} {l r : List α} {a : α} (hl : ∀ x ∈ l, f x = false) (ha : f a = true) :
    (l ++ a :: r).find? f = some a := by
  induction l with
  | nil => simp [ha]
  | cons x rest ih =>
    rw [List.cons_append, List.find?_cons, hl x (by simp)]
    exact ih fun y hy => hl y (by simp [hy])

/-- The first element for which f holds changed, in a list split at it. -/
theorem modifyFirst_split {α : Type} {f : α → Bool} {g : α → α} {l r : List α} {a : α} (hl : ∀ x ∈ l, f x = false)
    (ha : f a = true) : modifyFirst f g (l ++ a :: r) = l ++ g a :: r := by
  induction l with
  | nil => simp [modifyFirst, ha]
  | cons x rest ih =>
    rw [List.cons_append, modifyFirst, hl x (by simp)]
    simp [ih fun y hy => hl y (by simp [hy])]

/-- The first element for which f holds taken out, in a list split at it. -/
theorem eraseP_split {α : Type} {f : α → Bool} {l r : List α} {a : α} (hl : ∀ x ∈ l, f x = false) (ha : f a = true) :
    (l ++ a :: r).eraseP f = l ++ r := by
  induction l with
  | nil => simp [ha]
  | cons x rest ih =>
    rw [List.cons_append, List.eraseP_cons_of_neg (by simp [hl x (by simp)]), ih fun y hy => hl y (by simp [hy])]
    rfl

/-- A list in which f holds of some element, split at the first. -/
theorem split_of_find? {α : Type} {f : α → Bool} {l : List α} {a : α} (h : l.find? f = some a) :
    ∃ u v, l = u ++ a :: v ∧ (∀ x ∈ u, f x = false) ∧ f a = true := by
  obtain ⟨ha, u, v, rfl, hu⟩ := List.find?_eq_some_iff_append.mp h
  exact ⟨u, v, rfl, fun x hx => by simpa using hu x hx, ha⟩

/-- The history with an entry added, by the length it has. -/
theorem pushHistory_cases (h : List HistoryEntry) (e : HistoryEntry) :
    pushHistory h e = if h.length < 8 then h ++ [e] else h.drop 1 ++ [e] := by
  unfold pushHistory
  by_cases hlt : h.length < 8
  · rw [if_pos hlt, if_pos (show h.length < Config.historySize from hlt)]
  · rw [if_neg hlt, if_neg (show ¬ h.length < Config.historySize from hlt)]

/-- A history never holds more than 8 entries. -/
theorem pushHistory_length {h : List HistoryEntry} (hl : h.length ≤ 8) (e : HistoryEntry) :
    (pushHistory h e).length ≤ 8 := by
  rw [pushHistory_cases]
  split <;> simp <;> omega

/-- A history holds the last 8 entries written. -/
theorem pushHistory_eq {h : List HistoryEntry} (hl : h.length ≤ 8) (e : HistoryEntry) :
    pushHistory h e = (h ++ [e]).drop ((h ++ [e]).length - 8) := by
  rw [pushHistory_cases, List.length_append, List.length_singleton]
  split
  · rw [show h.length + 1 - 8 = 0 by omega]
    rfl
  · rw [show h.length + 1 - 8 = 1 by omega, List.drop_append_of_le_length (by omega)]

/-! ### The check, the costs and the records (R52, R54, R64) -/

/-- The running check folds the payload byte by byte (R64). -/
theorem foldChecks_eq_foldl (check : BitVec 16) (bytes : List Byte) :
    foldChecks check bytes = bytes.foldl (fun c b => c.rotateLeft 1 ^^^ b.setWidth 16) check := by
  induction bytes generalizing check with
  | nil => rfl
  | cons b rest ih => exact ih _

/-- The staged cost is the sum of the costs (R54). -/
theorem editsCost_eq_sum (list : List Edit) : editsCost list = (list.map Edit.cost).sum := by
  induction list with
  | nil => rfl
  | cons e rest ih => rw [editsCost, ih, List.map_cons, List.sum_cons]

/-- The records that a port's batches hold (R52). -/
theorem queueRecords_eq_sum (p : Port) (queue : List Batch) :
    queueRecords p queue = ((queue.filter fun b : Batch => b.port == p).map fun b => b.edits.length).sum := by
  induction queue with
  | nil => rfl
  | cons b rest ih =>
    rw [queueRecords, ih, List.filter_cons]
    by_cases h : b.port = p <;> simp [h]

/-! ### A TIMEOUT that is still due when its batch leaves (R95, log entry 11) -/

/-- It is given. -/
theorem State.overdueTimeout_eq {s : State} {b : Batch} {field : Byte} (hw : b.wait = true) (ht : b.timedOut = some field) :
    s.overdueTimeout b = s.complete b.port .timeout (b.acceptance ++ [field]) := by
  simp [State.overdueTimeout, hw, ht]

/-- There is none to give. -/
theorem State.overdueTimeout_none {s : State} {b : Batch} (h : b.wait = false ∨ b.timedOut = none) :
    s.overdueTimeout b = s := by
  unfold State.overdueTimeout
  rcases h with h | h
  · split <;> simp [h]
  · simp [h]

end Sys2Proof.Machine
end

