-- ==== Sys2Proof/Laws/Palette.lean ====
section
/-! SUPPORT. The Palette Store: reading after a write, and the canonical form kept by every write. -/

namespace Sys2Proof.Machine

/-- A store whose cells all lie above a cell reads there as after device reset. -/
theorem paletteRead_below {low : Nat} {store : List (Nat × Colour)} (h : paletteWfFrom low store = true) {cell : Nat}
    (hc : cell < low) : paletteRead store cell = paletteReset cell := by
  induction store generalizing low with
  | nil => rfl
  | cons e rest ih =>
    obtain ⟨k, c⟩ := e
    simp only [paletteWfFrom, Bool.and_eq_true, decide_eq_true_eq] at h
    rw [paletteRead, if_neg (by omega)]
    exact ih h.2 (by omega)

/-- Reading after a write: the cell written holds the colour, every other cell what it held. -/
theorem paletteRead_write {low : Nat} {store : List (Nat × Colour)} (h : paletteWfFrom low store = true) (cell : Nat)
    (c : Colour) (k : Nat) :
    paletteRead (paletteWrite store cell c) k = if k = cell then c else paletteRead store k := by
  induction store generalizing low with
  | nil =>
    simp only [paletteWrite]
    split
    · rename_i hc; subst hc
      simp only [paletteRead]
      split
      · rename_i hk; rw [hk]
      · rfl
    · simp only [paletteRead, eq_comm]
  | cons e rest ih =>
    obtain ⟨j, d⟩ := e
    simp only [paletteWfFrom, Bool.and_eq_true, decide_eq_true_eq] at h
    have hr := h.2
    simp only [paletteWrite]
    split
    · rename_i hlt
      split
      · rename_i hc; subst hc
        by_cases hk : k = cell
        · subst hk
          rw [if_pos rfl, paletteRead, if_neg (by omega), paletteRead_below hr (by omega)]
        · rw [if_neg hk]
      · simp only [paletteRead, eq_comm]
    · split
      · rename_i heq; subst heq
        split
        · rename_i hc; subst hc
          by_cases hk : k = cell
          · subst hk
            rw [if_pos rfl, paletteRead_below hr (by omega)]
          · rw [if_neg hk, paletteRead, if_neg (by omega)]
        · by_cases hk : k = cell
          · subst hk; simp [paletteRead]
          · rw [if_neg hk, paletteRead, paletteRead, if_neg (by omega), if_neg (by omega)]
      · rename_i hne
        by_cases hk : k = cell
        · subst hk
          rw [paletteRead, if_neg (by omega), ih hr, if_pos rfl, if_pos rfl]
        · rw [if_neg hk, paletteRead, paletteRead, ih hr, if_neg hk]

/-- The lower bound of the canonical form may be lowered. -/
theorem paletteWfFrom_mono {low low' : Nat} {store : List (Nat × Colour)} (h : paletteWfFrom low store = true)
    (hl : low' ≤ low) : paletteWfFrom low' store = true := by
  cases store with
  | nil => rfl
  | cons e rest =>
    simp only [paletteWfFrom, Bool.and_eq_true, decide_eq_true_eq, bne_iff_ne] at h ⊢
    exact ⟨⟨⟨by omega, h.1.1.2⟩, h.1.2⟩, h.2⟩

/-- A write of a cell of the store keeps the canonical form. -/
theorem paletteWfFrom_write {low : Nat} {store : List (Nat × Colour)} (h : paletteWfFrom low store = true) {cell : Nat}
    (hl : low ≤ cell) (hc : cell < 1024) (c : Colour) : paletteWfFrom low (paletteWrite store cell c) = true := by
  induction store generalizing low with
  | nil =>
    simp only [paletteWrite]
    split
    · rfl
    · rename_i hne
      simp [paletteWfFrom, hl, hc, hne]
  | cons e rest ih =>
    obtain ⟨j, d⟩ := e
    have h0 := h
    simp only [paletteWfFrom, Bool.and_eq_true, decide_eq_true_eq, bne_iff_ne] at h
    obtain ⟨⟨⟨h1, h2⟩, h3⟩, h4⟩ := h
    simp only [paletteWrite]
    split
    · rename_i hlt
      split
      · exact h0
      · rename_i hne
        simp only [paletteWfFrom, Bool.and_eq_true, decide_eq_true_eq, bne_iff_ne]
        exact ⟨⟨⟨hl, hc⟩, hne⟩, ⟨⟨⟨hlt, h2⟩, h3⟩, h4⟩⟩
    · split
      · rename_i heq; subst heq
        split
        · exact paletteWfFrom_mono h4 (by omega)
        · rename_i hne
          simp only [paletteWfFrom, Bool.and_eq_true, decide_eq_true_eq, bne_iff_ne]
          exact ⟨⟨⟨hl, hc⟩, hne⟩, h4⟩
      · simp only [paletteWfFrom, Bool.and_eq_true, decide_eq_true_eq, bne_iff_ne]
        exact ⟨⟨⟨h1, h2⟩, h3⟩, ih h4 (by omega)⟩

/-- The store after device reset is in canonical form. -/
theorem Memory.wf_reset : Memory.wf State.reset.live.palette = true := rfl

/-- One write keeps the canonical form. -/
theorem Memory.wf_write {store : List (Nat × Colour)} (h : Memory.wf store = true) {cell : Nat} (hc : cell < 1024)
    (c : Colour) : Memory.wf (paletteWrite store cell c) = true := paletteWfFrom_write h (Nat.zero_le _) hc c

/-- A run of writes keeps the canonical form. -/
theorem Memory.wf_writes {store : List (Nat × Colour)} (h : Memory.wf store = true) (cell : Nat) (cs : List Colour)
    (hc : cell + cs.length ≤ 1024) : Memory.wf (paletteWrites store cell cs) = true := by
  induction cs generalizing store cell with
  | nil => exact h
  | cons c rest ih =>
    simp only [List.length_cons] at hc
    exact ih (Memory.wf_write h (by omega) c) (cell + 1) (by omega)

/-- Reading after a run of writes: the cells of the run hold its colours in order, every other cell what it held. -/
theorem paletteRead_writes {store : List (Nat × Colour)} (h : Memory.wf store = true) (cell : Nat) (cs : List Colour)
    (hc : cell + cs.length ≤ 1024) (k : Nat) :
    paletteRead (paletteWrites store cell cs) k =
      if cell ≤ k ∧ k < cell + cs.length then cs.getD (k - cell) .black else paletteRead store k := by
  induction cs generalizing store cell with
  | nil =>
    rw [if_neg (by simp only [List.length_nil]; omega)]
    rfl
  | cons c rest ih =>
    simp only [List.length_cons] at hc ⊢
    rw [paletteWrites, ih (Memory.wf_write h (by omega) c) (cell + 1) (by omega), paletteRead_write h]
    by_cases h1 : k = cell
    · subst h1
      rw [if_neg (by omega), if_pos rfl, if_pos (by omega)]
      simp
    · by_cases h2 : cell + 1 ≤ k ∧ k < cell + 1 + rest.length
      · rw [if_pos h2, if_pos (by omega)]
        obtain ⟨m, rfl⟩ : ∃ m, k = cell + 1 + m := ⟨k - (cell + 1), by omega⟩
        have e1 : cell + 1 + m - (cell + 1) = m := by omega
        have e2 : cell + 1 + m - cell = m + 1 := by omega
        rw [e1, e2, List.getD_cons_succ]
      · rw [if_neg h2, if_neg h1, if_neg (by omega)]

end Sys2Proof.Machine
end

