-- ==== Sys2Proof/Laws/Ports.lean ====
section
/-! SUPPORT. What a frame command does, said once: its frame passes the buffer, the common checks judge it, and the
owning block's action is answered or goes into flight. `exec_row_run` is the lemma to cite. -/

namespace Sys2Proof.Machine

/-! ### What does not depend on a port's CPI -/

@[simp] theorem State.setCpi_claimOf (s : State) (p : Port) (c : Cpi) (r : Resource) : (s.setCpi p c).claimOf r = s.claimOf r := by
  cases r <;> rfl

@[simp] theorem State.setCpi_roleOf (s : State) (p : Port) (c : Cpi) (k : Port) : (s.setCpi p c).roleOf k = s.roleOf k := (rfl)

@[simp] theorem State.setCpi_strapped (s : State) (p : Port) (c : Cpi)  : (s.setCpi p c).strapped = s.strapped := (rfl)

@[simp] theorem State.setCpi_supervisor (s : State) (p : Port) (c : Cpi)  : (s.setCpi p c).supervisor = s.supervisor := (rfl)

@[simp] theorem State.setCpi_anyPlane (s : State) (p : Port) (c : Cpi)  : (s.setCpi p c).anyPlane = s.anyPlane := (rfl)

@[simp] theorem State.setCpi_isAttached (s : State) (p : Port) (c : Cpi) (k : Port) : (s.setCpi p c).isAttached k = s.isAttached k := (rfl)

@[simp] theorem State.setCpi_holdsClaim (s : State) (p : Port) (c : Cpi) (k : Port) : (s.setCpi p c).holdsClaim k = s.holdsClaim k := (rfl)

@[simp] theorem State.setCpi_portBatches (s : State) (p : Port) (c : Cpi) (k : Port) : (s.setCpi p c).portBatches k = s.portBatches k := (rfl)

@[simp] theorem State.setCpi_recordsInUse (s : State) (p : Port) (c : Cpi) (k : Port) : (s.setCpi p c).recordsInUse k = s.recordsInUse k := (rfl)

@[simp] theorem State.setCpi_poolFree (s : State) (p : Port) (c : Cpi) : (s.setCpi p c).poolFree = s.poolFree := (rfl)

@[simp] theorem State.setCpi_holds (s : State) (p : Port) (c : Cpi) (k : Port) (r : Resource) : (s.setCpi p c).holds k r = s.holds k r := by
  simp [State.holds]

@[simp] theorem State.setCpi_inUseCause (s : State) (p : Port) (c : Cpi) (k : Port) (r : Resource) : (s.setCpi p c).inUseCause k r = s.inUseCause k r := by
  cases r <;> rfl

@[simp] theorem State.setCpi_writeAddress (s : State) (p : Port) (c : Cpi) (k : Port) :
    (s.setCpi p c).writeAddress k = s.writeAddress k := (rfl)

@[simp] theorem State.setCpi_readAddress (s : State) (p : Port) (c : Cpi) (k : Port) :
    (s.setCpi p c).readAddress k = s.readAddress k := (rfl)

/-- An action of an owning block that neither reads nor writes the port's CPI. -/
def Apart (f : State → Reply × State) (p : Port) : Prop :=
  ∀ s c, (s.cpi p).state ≠ .executing → c.state ≠ .executing → f (s.setCpi p c) = ((f s).1, (f s).2.setCpi p c)

@[simp] theorem State.setCpi_guardedByte (s : State) (p : Port) (c : Cpi) (r : Resource) : guardedByte (s.setCpi p c) r = guardedByte s r := by
  cases r <;> rfl

@[simp] theorem State.setCpi_setClaim (s : State) (p : Port) (c : Cpi) (r : Resource) (k : Claim) : (s.setCpi p c).setClaim r k = (s.setClaim r k).setCpi p c := by
  cases r <;> rfl

@[simp] theorem State.setCpi_freed (s : State) (p : Port) (c : Cpi) (r : Resource) : (s.setCpi p c).freed r = (s.freed r).setCpi p c := by
  cases r <;> rfl

/-! ### The actions of the owning blocks -/

theorem apart_attach (p : Port) (session : Byte) (payload : List Byte) : Apart (attachAct p session payload) p := by
  intro s c _ _
  unfold attachAct
  simp only [State.setCpi_session, State.setCpi_roleOf]
  by_cases h : (s.session p).state = .attached
  · simp only [if_pos h]
  · simp only [if_neg h]
    split
    · split
      · rfl
      · rename_i lease _
        by_cases h : s.roleOf p = .member ∧ lease = 0
        · simp only [if_pos h]
        · simp only [if_neg h]
          rfl
    · rfl

theorem apart_claim (p : Port) (payload : List Byte) : Apart (claimAct p payload) p := by
  intro s c _ _
  unfold claimAct claimAny claimNamed
  (repeat' split) <;> simp_all <;> rfl

theorem apart_release (p : Port) (payload : List Byte) : Apart (releaseAct p payload) p := by
  intro s c _ _
  unfold releaseAct
  (repeat' split) <;> simp_all

theorem apart_revoke (p : Port) (payload : List Byte) : Apart (revokeAct payload) p := by
  intro s c _ _
  unfold revokeAct
  (repeat' split) <;> simp_all

theorem apart_stageEdit (p : Port) (payload : List Byte) (e : Option Edit) : Apart (stageEdit p payload e) p := by
  intro s c _ _
  unfold stageEdit
  split
  · rfl
  · simp only [State.setCpi_poolFree, State.setCpi_recordsInUse]
    by_cases h : s.poolFree = 0
    · simp only [if_pos h]; rfl
    · simp only [if_neg h]
      by_cases h : Config.portCap ≤ s.recordsInUse p
      · simp only [if_pos h]; rfl
      · simp only [if_neg h]; rfl

theorem apart_stagePlane (p : Port) (payload : List Byte) : Apart (stagePlaneAct p payload) p := by
  intro s c h1 h2
  unfold stagePlaneAct
  simp only [State.setCpi_holds]
  split
  · split
    · rfl
    · split
      · rfl
      · split
        · rfl
        · exact apart_stageEdit p _ _ s c h1 h2
  · rfl

theorem apart_stageColours (p : Port) (payload : List Byte) : Apart (stageColoursAct p payload) p := by
  intro s c h1 h2
  unfold stageColoursAct
  simp only [State.setCpi_holds]
  split
  · split
    · rfl
    · split
      · rfl
      · split
        · rfl
        · exact apart_stageEdit p _ _ s c h1 h2
  · rfl

theorem apart_seal (p : Port) (payload : List Byte) : Apart (sealAct p payload) p := by
  intro s c _ _
  unfold sealAct
  split
  · rfl
  · rename_i a _
    simp only [State.setCpi_staged, State.setCpi_live, State.setCpi_timing, State.setCpi_queue, State.setCpi_portBatches]
    by_cases h : (s.staged p).list.length = 0
    · simp only [if_pos h]
    · simp only [if_neg h]
      by_cases h : a.count ≠ (s.staged p).list.length
      · simp only [if_pos h]; rfl
      · simp only [if_neg h]
        by_cases h : a.check ≠ (s.staged p).check
        · simp only [if_pos h]; rfl
        · simp only [if_neg h]
          by_cases h : s.live.scan.budget < editsCost (s.staged p).list
          · simp only [if_pos h]; rfl
          · simp only [if_neg h]
            split
            · rfl
            · by_cases h : Config.queueSize ≤ s.queue.length ∨ Config.queuePortCap ≤ s.portBatches p
              · simp only [if_pos h]
              · simp only [if_neg h]; rfl

theorem apart_withdraw (p : Port) (payload : List Byte) : Apart (withdrawAct p payload) p := by
  intro s c _ _
  unfold withdrawAct withdrawNumber
  (repeat' split) <;> simp_all <;> rfl

theorem apart_waitField (p : Port) (payload : List Byte) : Apart (waitFieldAct p payload) p := by
  intro s c _ _
  unfold waitFieldAct
  (repeat' split) <;> rfl

theorem apart_queryColours (p : Port) (payload : List Byte) : Apart (queryColoursAct payload) p := by
  intro s c _ _
  unfold queryColoursAct
  (repeat' split) <;> rfl

/-- Two ports' CPIs are written in either order. -/
theorem State.setCpi_comm (s : State) {p q : Port} (h : p ≠ q) (c d : Cpi) :
    (s.setCpi p c).setCpi q d = (s.setCpi q d).setCpi p c := by
  simp only [State.setCpi]
  congr 1
  exact Vector.set_comm _ _ (fun e => h (Fin.ext e))

/-- A completion at one port does not see the CPI of another, nor one at a port that is not Executing its own. -/
theorem State.complete_setCpi {s : State} {p q : Port} (c : Cpi) (k : Completion) (out : List Byte)
    (h : p = q → (s.cpi q).state ≠ .executing ∧ c.state ≠ .executing) :
    (s.setCpi p c).complete q k out = (s.complete q k out).setCpi p c := by
  by_cases hpq : p = q
  · subst hpq
    rw [State.complete_of_not_executing (h rfl).1, State.complete_of_not_executing (by simpa using (h rfl).2)]
  · rw [State.complete_eq, State.complete_eq]
    have e : (s.setCpi p c).cpi q = s.cpi q := by
      rw [State.setCpi_cpi, if_neg fun e => hpq e.symm]
    rw [e]
    split
    · rw [State.setCpi_comm s hpq]
      rfl
    · rfl

/-- The end of a command in flight, in the same way. -/
theorem State.endInFlight_setCpi {t : State} {p q : Port} (c : Cpi) (waiting : Option Batch)
    (h : p = q → (t.cpi q).state ≠ .executing ∧ c.state ≠ .executing) :
    (t.setCpi p c).endInFlight q waiting = (t.endInFlight q waiting).setCpi p c := by
  have hw : ((t.setCpi p c).setWaiter q none) = (t.setWaiter q none).setCpi p c := rfl
  unfold State.endInFlight State.endWaitField State.endSeal
  simp only [State.setCpi_timing, hw]
  cases t.timing.waiters[q] with
  | some w => cases hd : w.due <;> simp only [hd] <;> exact State.complete_setCpi (s := t.setWaiter q none) c _ _ h
  | none =>
    cases waiting with
    | none => rfl
    | some b => cases hd : b.timedOut <;> simp only [hd] <;> exact State.complete_setCpi c _ _ h

/-- The beginning of a lapse, in the same way. -/
theorem State.beginLapse_setCpi {s : State} {p q : Port} (c : Cpi) (cause : LapseCause)
    (h : p = q → (s.cpi q).state ≠ .executing ∧ c.state ≠ .executing) :
    (s.setCpi p c).beginLapse q cause = (s.beginLapse q cause).setCpi p c :=
  State.endInFlight_setCpi (t := ((s.setSession q _).setStaged q .empty).purge q) c _ h

theorem apart_detach (p : Port) (payload : List Byte) : Apart (detachAct p payload) p := by
  intro s c h1 h2
  unfold detachAct
  split
  · simp only [State.setCpi_session, State.setCpi_holdsClaim, State.setCpi_portBatches]
    split
    · rw [State.beginLapse_setCpi c _ fun _ => ⟨h1, h2⟩]
    · rfl
  · rfl

theorem apart_evict (p : Port) (payload : List Byte) : Apart (evictAct p payload) p := by
  intro s c h1 h2
  unfold evictAct
  split
  · split
    · rfl
    · split
      · rfl
      · simp only [State.setCpi_session]
        split
        · rfl
        · rfl
        · rw [State.beginLapse_setCpi c _ fun h => ⟨by rw [← h]; exact h1, h2⟩]
  · rfl

theorem apart_stageOrder (p : Port) (payload : List Byte) : Apart (stageOrderAct p payload) p := by
  intro s c h1 h2
  unfold stageOrderAct
  simp only [State.setCpi_holds]
  repeat' first | rfl | exact apart_stageEdit p _ _ s c h1 h2 | split

theorem apart_stageSignature (p : Port) (payload : List Byte) : Apart (stageSignatureAct p payload) p := by
  intro s c h1 h2
  unfold stageSignatureAct
  simp only [State.setCpi_holds, State.setCpi_live]
  repeat' first | rfl | exact apart_stageEdit p _ _ s c h1 h2 | split

theorem apart_stageGuard (p : Port) (payload : List Byte) : Apart (stageGuardAct p payload) p := by
  intro s c h1 h2
  unfold stageGuardAct
  repeat' first | rfl | exact apart_stageEdit p _ _ s c h1 h2 | split

theorem apart_stageScan (p : Port) (payload : List Byte) : Apart (stageScanAct p payload) p := by
  intro s c h1 h2
  unfold stageScanAct
  repeat' first | rfl | exact apart_stageEdit p _ _ s c h1 h2 | split

theorem apart_discard (p : Port) (payload : List Byte) : Apart (discardAct p payload) p := by
  intro s c _ _
  unfold discardAct
  (repeat' split) <;> rfl

theorem apart_readNotices (p : Port) (payload : List Byte) : Apart (readNoticesAct p payload) p := by
  intro s c _ _
  unfold readNoticesAct
  (repeat' split) <;> rfl

theorem apart_queryPlane (p : Port) (payload : List Byte) : Apart (queryPlaneAct payload) p := by
  intro s c _ _
  unfold queryPlaneAct
  (repeat' split) <;> rfl

theorem apart_queryOrder (p : Port) (payload : List Byte) : Apart (queryOrderAct payload) p := by
  intro s c _ _
  unfold queryOrderAct
  (repeat' split) <;> rfl

theorem apart_queryScan (p : Port) (payload : List Byte) : Apart (queryScanAct payload) p := by
  intro s c _ _
  unfold queryScanAct
  (repeat' split) <;> rfl

theorem guardsBytes_setCpi (s : State) (p : Port) (c : Cpi) (l : List Plane) :
    guardsBytes (s.setCpi p c) l = guardsBytes s l := by
  induction l with
  | nil => rfl
  | cons q rest ih => simp only [guardsBytes, ih]; rfl

theorem apart_queryGuard (p : Port) (payload : List Byte) : Apart (queryGuardAct payload) p := by
  intro s c _ _
  unfold queryGuardAct
  simp only [guardsBytes_setCpi]
  (repeat' split) <;> rfl

/-- Every action but STATUS's neither reads nor writes the CPI of its port, which takes a frame and so is not Executing. -/
theorem apart_ownerAct {c : Command} (hc : c ≠ .status) (p : Port) (session : Byte) (payload : List Byte) :
    Apart (ownerAct c p session payload) p := by
  intro s d h1 h2
  match c with
  | .status => exact absurd rfl hc
  | .attach => exact apart_attach p session payload s d h1 h2
  | .detach => exact apart_detach p payload s d h1 h2
  | .evict => exact apart_evict p payload s d h1 h2
  | .claim => exact apart_claim p payload s d h1 h2
  | .release => exact apart_release p payload s d h1 h2
  | .revoke => exact apart_revoke p payload s d h1 h2
  | .stagePlane => exact apart_stagePlane p payload s d h1 h2
  | .stageColours => exact apart_stageColours p payload s d h1 h2
  | .stageOrder => exact apart_stageOrder p payload s d h1 h2
  | .stageSignature => exact apart_stageSignature p payload s d h1 h2
  | .stageGuard => exact apart_stageGuard p payload s d h1 h2
  | .stageScan => exact apart_stageScan p payload s d h1 h2
  | .discard => exact apart_discard p payload s d h1 h2
  | .seal => exact apart_seal p payload s d h1 h2
  | .withdraw => exact apart_withdraw p payload s d h1 h2
  | .waitField => exact apart_waitField p payload s d h1 h2
  | .readNotices => exact apart_readNotices p payload s d h1 h2
  | .queryPlane => exact apart_queryPlane p payload s d h1 h2
  | .queryOrder => exact apart_queryOrder p payload s d h1 h2
  | .queryColours => exact apart_queryColours p payload s d h1 h2
  | .queryScan => exact apart_queryScan p payload s d h1 h2
  | .queryGuard => exact apart_queryGuard p payload s d h1 h2

/-- An action apart from the CPI leaves it as it stands. -/
theorem Apart.cpi {f : State → Reply × State} {p : Port} (h : Apart f p) {s : State}
    (hs : (s.cpi p).state ≠ .executing) : (f s).2.cpi p = s.cpi p := by
  have e := h s (s.cpi p) hs hs
  rw [State.setCpi_self] at e
  have e2 := congrArg (fun r => r.2.cpi p) e
  simpa [State.setCpi_cpi] using e2

/-! ### NRESET, and the end of a write -/

theorem State.complete_nreset (s : State) (p : Port) (k : Completion) (out : List Byte) :
    (s.complete p k out).nreset = s.nreset := by
  rw [State.complete_eq]
  split <;> rfl

theorem State.endInFlight_nreset (s : State) (p : Port) (waiting : Option Batch) :
    (s.endInFlight p waiting).nreset = s.nreset := by
  unfold State.endInFlight State.endWaitField State.endSeal
  repeat' split
  all_goals first | exact State.complete_nreset (s.setWaiter p none) p _ _ | exact State.complete_nreset s p _ _ | rfl

theorem State.beginLapse_nreset (s : State) (p : Port) (cause : LapseCause) : (s.beginLapse p cause).nreset = s.nreset :=
  State.endInFlight_nreset _ p _

theorem State.setClaim_nreset (s : State) (r : Resource) (c : Claim) : (s.setClaim r c).nreset = s.nreset := by
  cases r <;> rfl

theorem State.freed_nreset (s : State) (r : Resource) : (s.freed r).nreset = s.nreset := by
  cases r <;> rfl

/-- No owning block touches NRESET. -/
theorem ownerAct_nreset (c : Command) (p : Port) (session : Byte) (payload : List Byte) (s : State) :
    (ownerAct c p session payload s).2.nreset = s.nreset := by
  cases c <;>
    simp only [ownerAct, statusAct, attachAct, detachAct, evictAct, claimAct, claimAny, claimNamed, releaseAct, revokeAct,
      stagePlaneAct, stageColoursAct, stageOrderAct, stageSignatureAct, stageGuardAct, stageScanAct, stageEdit,
      stageRefused, discardAct, sealAct, withdrawAct, withdrawNumber, waitFieldAct, readNoticesAct, queryPlaneAct,
      queryOrderAct, queryColoursAct, queryScanAct, queryGuardAct] <;>
    (repeat' split) <;>
    first
      | rfl
      | exact State.beginLapse_nreset _ _ _
      | exact State.setClaim_nreset _ _ _
      | exact State.freed_nreset _ _

/-- The port has no transaction in progress, and NRESET is as in s. -/
def State.FreedFrom (s t : State) (p : Port) : Prop := (t.cpi p).bus = .free ∧ t.nreset = s.nreset

theorem State.answer_freed (s t : State) (p : Port) (k : Completion) (code : Byte) (out : List Byte)
    (h : t.nreset = s.nreset) : s.FreedFrom (t.answer p k code out) p :=
  ⟨by simp [State.answer, Cpi.answered], h⟩

theorem State.finish_freed (s t : State) (p : Port) (code : Byte) (r : Reply) (h : t.nreset = s.nreset) :
    s.FreedFrom (t.finish p code r) p := by
  cases r with
  | done k out =>
    exact State.answer_freed s (t.restartLease p) p k code out (by rw [State.restartLease_eq]; exact h)
  | inFlight => exact ⟨by simp [State.finish, Cpi.launched], h⟩

/-- A write that ends, judged or not, leaves the port with no transaction in progress (R162). -/
theorem State.endWrite_freed {s : State} {p : Port} (h : (s.cpi p).bus = .writing ∨ (s.cpi p).bus = .writeRefused) :
    s.FreedFrom (s.endWrite p) p := by
  unfold State.endWrite
  rcases h with h | h
  · rw [h]
    simp only
    split
    · exact ⟨by simp [Cpi.backToPrior], rfl⟩
    · unfold State.judgeFrame
      repeat' split
      all_goals first | exact State.answer_freed s s p _ _ _ rfl | skip
      unfold State.takeCommand
      split
      · exact State.answer_freed s s p _ _ _ rfl
      · split
        · exact State.answer_freed s s p _ _ _ rfl
        · unfold State.runCommand
          split
          · exact State.finish_freed s s p _ _ rfl
          · exact State.finish_freed s _ p _ _ (ownerAct_nreset _ p _ _ s)
  · rw [h]
    exact ⟨by simp, rfl⟩

/-! ### A START or a repeated START with no transaction in progress (R159, R169, R172) -/

/-- One that the port hears leaves it listening, with everything else as it stands. -/
theorem State.startCondition_of_hears {s : State} {p : Port} {kind : StartKind} (h : s.Hears p kind) :
    s.startCondition p kind = s.setCpi p { s.cpi p with bus := .free } := by
  unfold State.startCondition
  rcases h with h | ⟨h, rfl⟩
  · rw [h]
    have hs : s.setCpi p { s.cpi p with bus := .free } = s := by
      rw [← h]
      exact State.setCpi_self s p
    have hw : s.endWrite p = s := by unfold State.endWrite; rw [h]
    rw [hs]
    simp only [hw]
    unfold State.endRead
    rw [h]
  · rw [h]

/-- A repeated START does not reach a port that ignores the bus. -/
theorem State.startCondition_of_ignoring {s : State} {p : Port} (h : (s.cpi p).bus = .ignoring) :
    s.startCondition p .repeated = s := by
  unfold State.startCondition
  rw [h]
  have hw : s.endWrite p = s := by unfold State.endWrite; rw [h]
  simp only [hw]
  unfold State.endRead
  rw [h]

/-- A START reaches every port that has no transaction in progress. -/
theorem State.BusQuiet.hears {s : State} {p : Port} (h : s.BusQuiet p) : s.Hears p .start := h.imp_right fun h => ⟨h, rfl⟩

/-! ### A START or a repeated START in a transaction that is still open (R159, log entry 7) -/

/-- A port that listens hears both, and stays as it is. -/
theorem State.startCondition_of_free {s : State} {p : Port} (h : (s.cpi p).bus = .free) (kind : StartKind) :
    s.startCondition p kind = s := by
  rw [State.startCondition_of_hears (.inl h), ← h]
  exact State.setCpi_self s p

/-- In a write it does what the end of the write does (R162). -/
theorem State.startCondition_of_write {s : State} {p : Port}
    (h : (s.cpi p).bus = .writing ∨ (s.cpi p).bus = .writeRefused) (kind : StartKind) :
    s.startCondition p kind = s.endWrite p := by
  have he : s.startCondition p kind = (s.endWrite p).endRead p 0 := by
    unfold State.startCondition
    rcases h with h | h <;> rw [h]
  rw [he]
  unfold State.endRead
  rw [(State.endWrite_freed h).1]

/-- A read that ends leaves the port with no transaction in progress (R166). -/
theorem State.endRead_freed {s : State} {p : Port} (n : Nat)
    (h : (s.cpi p).bus = .readHeld ∨ (s.cpi p).bus = .readNone ∨ ∃ code, (s.cpi p).bus = .readPending code) :
    s.FreedFrom (s.endRead p n) p := by
  unfold State.endRead
  rcases h with h | h | ⟨code, h⟩ <;> rw [h]
  · simp only
    split
    · exact ⟨by simp [Cpi.consumed], rfl⟩
    · exact ⟨by simp, rfl⟩
  · exact ⟨by simp, rfl⟩
  · exact ⟨by simp, rfl⟩

/-- In a read it does what the end of the read with no byte read does (R166). -/
theorem State.startCondition_of_read {s : State} {p : Port}
    (h : (s.cpi p).bus = .readHeld ∨ (s.cpi p).bus = .readNone ∨ ∃ code, (s.cpi p).bus = .readPending code)
    (kind : StartKind) : s.startCondition p kind = s.endRead p 0 := by
  have hw : s.endWrite p = s := by
    unfold State.endWrite
    rcases h with h | h | ⟨code, h⟩ <;> rw [h]
  have he : s.startCondition p kind = (s.endWrite p).endRead p 0 := by
    unfold State.startCondition
    rcases h with h | h | ⟨code, h⟩ <;> rw [h]
  rw [he, hw]

/-- In a stretched read none comes through (R168). -/
theorem State.startCondition_of_stretching {s : State} {p : Port} (h : (s.cpi p).bus = .stretching) (kind : StartKind) :
    s.startCondition p kind = s := by
  have hw : s.endWrite p = s := by unfold State.endWrite; rw [h]
  have he : s.startCondition p kind = (s.endWrite p).endRead p 0 := by unfold State.startCondition; rw [h]
  rw [he, hw]
  unfold State.endRead
  rw [h]

/-! ### A frame through the port -/

/-- The prior state that Receiving remembers when it begins. -/
def Cpi.left (c : Cpi) : PriorState := if c.state = .holding then .holding else .idle

/-- A frame sent to a port that is ready is received and judged by the common checks. -/
theorem State.sendFrame_eq {s : State} {p : Port} (h : s.Ready p) (c : Command) (session : Byte) {payload : List Byte}
    (hl : payload.length ≤ 61) :
    s.sendFrame p c session payload
      = (s.setCpi p ((s.cpi p).received (s.cpi p).left (frameBytes c session payload))).takeCommand p c.code session
        payload := by
  obtain ⟨hn, hb, hst⟩ := h
  have hw : s.writeMatch p ⟨.start, s.writeAddress p⟩ (frameBytes c session payload)
      = s.setCpi p ((s.cpi p).received (s.cpi p).left (frameBytes c session payload)) := by
    unfold State.writeMatch
    rw [State.startCondition_of_hears hb.hears]
    rcases hst with hst | hst <;> simp [hst, Cpi.left, Cpi.received]
  have hn' : (byteOf payload.length).toNat = payload.length := by
    simp only [byteOf, BitVec.toNat_ofNat]
    omega
  have hc : (s.cpi p).received (s.cpi p).left (frameBytes c session payload)
      = { s.cpi p with
          state := .receiving, prior := (s.cpi p).left, buffer := frameBytes c session payload, long := false
          bus := .writing } := by
    have hlen : (frameBytes c session payload).length = payload.length + 3 := by simp [frameBytes]
    unfold Cpi.received
    rw [List.take_of_length_le (by omega)]
    simp
    omega
  unfold State.sendFrame
  rw [if_pos hn, hw, hc]
  simp [State.endWrite, State.judgeFrame, State.setCpi_cpi, frameBytes, hn', hl]

theorem Command.ofCode_code (c : Command) : Command.ofCode c.code = some c := by
  cases c <;> rfl

/-- A frame command's row writes its frame. -/
theorem exec_row (c : Command) (p : Port) (session : Byte) (payload : List Byte) (s : State) :
    exec (c.row p session payload) s = .next (s.sendFrame p c session payload) := by
  cases c <;> rfl

/-- A port that is ready is not Executing. -/
theorem State.Ready.not_executing {s : State} {p : Port} (h : s.Ready p) : (s.cpi p).state ≠ .executing := by
  intro e
  rcases h.2.2 with h | h <;> rw [h] at e <;> cases e

/-- The answer of a frame in the buffer. -/
theorem State.answer_received (t : State) (p : Port) (k : Completion) (code : Byte) (data out : List Byte) :
    (t.setCpi p ((t.cpi p).received (t.cpi p).left data)).answer p k code out = t.withAnswer p k code out := by
  simp only [State.answer, State.setCpi_cpi, State.setCpi_setCpi, State.withAnswer]
  rfl

/-- The launch of a frame in the buffer. -/
theorem State.launch_received (t : State) (p : Port) (code : Byte) (data : List Byte) :
    (t.setCpi p ((t.cpi p).received (t.cpi p).left data)).finish p code .inFlight = t.withLaunch p code := by
  simp only [State.finish, State.setCpi_cpi, State.setCpi_setCpi, State.withLaunch]
  rfl

/-- The immediate reply to a frame in the buffer. -/
theorem State.done_received (t : State) (p : Port) (k : Completion) (code : Byte) (data out : List Byte) :
    (t.setCpi p ((t.cpi p).received (t.cpi p).left data)).finish p code (.done k out)
      = t.withReplyInAnyState p k code out := by
  unfold State.finish State.withReplyInAnyState
  rw [State.restartLease_eq]
  simp only [State.setCpi_session]
  by_cases h : (t.session p).state = .attached
  · simp only [if_pos h]
    rw [State.withReply, ← State.answer_received t p k code data out]
    rfl
  · simp only [if_neg h]
    rw [← State.answer_received t p k code data out]
    congr 1
    exact State.setSession_self (t.setCpi p _) p

/-- The common checks passed: the action's reply is the port's answer. -/
theorem exec_row_run {s : State} {p : Port} {c : Command} {session : Byte} {payload : List Byte} (hr : s.Ready p)
    (hl : payload.length ≤ 61) (hc : c ≠ .status) (hpass : sessionRefusal c (s.session p) session = none)
    (hsup : c.supervisorOnly = true → s.supervisor = some p) :
    exec (c.row p session payload) s
      = .next
        (match ownerAct c p session payload s with
          | (.done k out, t) => t.withReplyInAnyState p k c.code out
          | (.inFlight, t) => t.withLaunch p c.code) := by
  have hx := hr.not_executing
  have ha := apart_ownerAct hc p session payload s
    ((s.cpi p).received (s.cpi p).left (frameBytes c session payload)) hx (by simp [Cpi.received])
  have hcpi := (apart_ownerAct hc p session payload).cpi hx
  rw [exec_row, State.sendFrame_eq hr c session hl]
  unfold State.takeCommand
  rw [Command.ofCode_code]
  simp only [State.setCpi_session, hpass]
  unfold State.runCommand
  rw [if_neg (by simpa using hsup), ha]
  generalize ownerAct c p session payload s = r at hcpi
  obtain ⟨reply, t⟩ := r
  simp only at hcpi ⊢
  rw [← hcpi]
  cases reply with
  | done k out => exact congrArg _ (State.done_received t p k c.code _ out)
  | inFlight => exact congrArg _ (State.launch_received t p c.code _)

/-- Refused by the session checks. -/
theorem exec_row_refused {s : State} {p : Port} {c : Command} {session : Byte} {payload : List Byte} {k : Completion}
    (hr : s.Ready p) (hl : payload.length ≤ 61) (hrej : sessionRefusal c (s.session p) session = some k) :
    exec (c.row p session payload) s = .next (s.withAnswer p k c.code []) := by
  rw [exec_row, State.sendFrame_eq hr c session hl]
  unfold State.takeCommand
  rw [Command.ofCode_code]
  simp only [State.setCpi_session, hrej]
  exact congrArg _ (State.answer_received s p k c.code _ [])

/-- Refused by the supervisor-only check. -/
theorem exec_row_notSupervisor {s : State} {p : Port} {c : Command} {session : Byte} {payload : List Byte}
    (hr : s.Ready p) (hl : payload.length ≤ 61) (hpass : sessionRefusal c (s.session p) session = none)
    (hsup : c.supervisorOnly = true ∧ s.supervisor ≠ some p) :
    exec (c.row p session payload) s = .next (s.withReplyInAnyState p .notSupervisor c.code []) := by
  rw [exec_row, State.sendFrame_eq hr c session hl]
  unfold State.takeCommand
  rw [Command.ofCode_code]
  simp only [State.setCpi_session, hpass]
  unfold State.runCommand
  rw [if_pos (by simpa using hsup)]
  exact congrArg _ (State.done_received s p .notSupervisor c.code _ [])

theorem State.withReplyInAnyState_attached {s : State} {p : Port} (h : (s.session p).state = .attached) (k : Completion)
    (code : Byte) (payload : List Byte) : s.withReplyInAnyState p k code payload = s.withReply p k code payload :=
  if_pos h

theorem sessionRefusal_inSession {s : State} {p : Port} {session : Byte} (h : s.InSession p session) {c : Command}
    (hc : c ≠ .attach) : sessionRefusal c (s.session p) session = none := by
  obtain ⟨h1, h2⟩ := h
  cases c <;> simp_all [sessionRefusal]

/-- A session command of an Attached port, answered at once. -/
theorem exec_row_done {s t : State} {p : Port} {c : Command} {session : Byte} {payload : List Byte} {k : Completion}
    {out : List Byte} (hr : s.Ready p) (hi : s.InSession p session) (hl : payload.length ≤ 61) (hc : c ≠ .status)
    (hc' : c ≠ .attach) (hsup : c.supervisorOnly = true → s.supervisor = some p)
    (hact : ownerAct c p session payload s = (.done k out, t)) (ht : (t.session p).state = .attached) :
    exec (c.row p session payload) s = .next (t.withReply p k c.code out) := by
  rw [exec_row_run hr hl hc (sessionRefusal_inSession hi hc') hsup, hact]
  exact congrArg _ (if_pos ht)

end Sys2Proof.Machine
end

