-- ==== Sys2Proof/Laws/Timing.lean ====
section
/-! SUPPORT. What one PCLK edge and one lease tick can do, said once: the frame of an edge, the delay line after a run of
periods, where PIXEL_COMPOSE puts the counters, that these keep the law of the output, and that a tick of one port's
lease leaves the other ports alone. -/

namespace Sys2Proof.Machine

/-! ### One PCLK edge -/

/-- The composition of a pixel writes the signatures, the fault sets and the delay line, and nothing else. -/
theorem State.composePixel_frame (s : State) (x y : Nat) (a b : Sample) :
    s.composePixel x y a b =
      { s with
        live := { s.live with guards := (s.composePixel x y a b).live.guards }
        compose :=
          { s.compose with
            faultA := (s.composePixel x y a b).compose.faultA, faultB := (s.composePixel x y a b).compose.faultB
            pipe := (s.composePixel x y a b).compose.pipe } } := rfl

/-- An edge at which samples are due composes their pixel. -/
theorem State.edge_of_sampleDue {s : State} (h : s.sampleDue = true) (a b : Sample) :
    s.edge a b =
      { s with
        timing := s.timing.advance s.live.scan
        compose := { s.compose with pipe := s.compose.pipe.push s.periodWord, sampleA := a, sampleB := b }
      }.composePixel (s.timing.pixel - 1) s.timing.line a b := if_pos h

/-- Any other edge moves the counters and the delay line. -/
theorem State.edge_of_not_sampleDue {s : State} (h : s.sampleDue = false) (a b : Sample) :
    s.edge a b =
      { s with
        timing := s.timing.advance s.live.scan
        compose := { s.compose with pipe := s.compose.pipe.push s.periodWord, sampleA := a, sampleB := b } } := by
  unfold State.edge
  rw [h]
  rfl

/-- An edge writes the counters, the signatures and the Compose Pipeline's outputs and fault sets, and nothing else. -/
theorem State.edge_frame (s : State) (a b : Sample) :
    s.edge a b =
      { s with
        timing := s.timing.advance s.live.scan
        live := { s.live with guards := (s.edge a b).live.guards }
        compose :=
          { s.compose with
            faultA := (s.edge a b).compose.faultA, faultB := (s.edge a b).compose.faultB, sampleA := a, sampleB := b
            pipe := (s.edge a b).compose.pipe } } := by
  cases h : s.sampleDue with
  | true =>
    rw [State.edge_of_sampleDue h]
    rfl
  | false =>
    rw [State.edge_of_not_sampleDue h]

/-- An idle step is an edge, unless NRESET is low or an event is due. -/
theorem State.tick_eq {s : State} (hn : s.nreset = true) (he : s.eventDue = false) :
    s.tick = s.edge s.compose.sampleA s.compose.sampleB := by
  unfold State.tick
  rw [hn, he]
  rfl

/-- In the period at which PIXEL_COMPOSE is taken the samples of its pixel are due. -/
theorem State.sampleDue_skipTo {s : State} {x y : Nat} (hr : s.timing.region = .active) (hx : x < s.live.scan.width)
    (hy : y < s.live.scan.height) : (s.skipTo x y).sampleDue = true := by
  simp [State.sampleDue, State.skipTo, hr, hy]
  omega

/-! ### The delay line -/

/-- The words of the delay line, the oldest first. -/
def OutPipe.words (pipe : OutPipe) : List OutWord := [pipe.pins, pipe.second, pipe.third, pipe.newest]

/-- The delay line holds the last four words that went in; more than four periods with one word are as good as four. -/
theorem OutPipe.pushes_eq {pipe : OutPipe} {w : OutWord} {n : Nat} {older : List OutWord} {a b c d : OutWord}
    (h : pipe.words ++ List.replicate n w = older ++ [a, b, c, d]) : pipe.pushes w (min 4 n) = ⟨a, b, c, d⟩ := by
  match n with
  | 0 =>
    have e : [] ++ [pipe.pins, pipe.second, pipe.third, pipe.newest] = older ++ [a, b, c, d] := by
      simpa [OutPipe.words] using h
    obtain ⟨rfl, rfl, rfl, rfl⟩ : pipe.pins = a ∧ pipe.second = b ∧ pipe.third = c ∧ pipe.newest = d := by
      simpa using (List.append_inj' e rfl).2
    rfl
  | 1 =>
    have e : [pipe.pins] ++ [pipe.second, pipe.third, pipe.newest, w] = older ++ [a, b, c, d] := h
    simpa [OutPipe.pushes, OutPipe.push] using (List.append_inj' e rfl).2
  | 2 =>
    have e : [pipe.pins, pipe.second] ++ [pipe.third, pipe.newest, w, w] = older ++ [a, b, c, d] := h
    simpa [OutPipe.pushes, OutPipe.push] using (List.append_inj' e rfl).2
  | 3 =>
    have e : [pipe.pins, pipe.second, pipe.third] ++ [pipe.newest, w, w, w] = older ++ [a, b, c, d] := h
    simpa [OutPipe.pushes, OutPipe.push] using (List.append_inj' e rfl).2
  | n + 4 =>
    rw [← List.replicate_append_replicate, ← List.append_assoc] at h
    obtain ⟨_, e⟩ := List.append_inj' h rfl
    rw [show min 4 (n + 4) = 4 by omega]
    simpa [OutPipe.pushes, OutPipe.push, List.replicate] using e

/-! ### The lease -/

/-- The end of a command in flight leaves another port's CPI and session as they are. -/
theorem State.endInFlight_other {s : State} {p q : Port} (h : q ≠ p) (waiting : Option Batch) :
    (s.endInFlight p waiting).cpi q = s.cpi q ∧ (s.endInFlight p waiting).session q = s.session q := by
  have hc : ∀ (t : State) (k : Completion) (out : List Byte),
      (t.complete p k out).cpi q = t.cpi q ∧ (t.complete p k out).session q = t.session q := by
    intro t k out
    rw [State.complete_eq]
    split
    · exact ⟨by simp [State.setCpi_cpi, h], by simp [h]⟩
    · exact ⟨rfl, rfl⟩
  unfold State.endInFlight State.endWaitField State.endSeal
  repeat' split
  all_goals first | exact hc (s.setWaiter p none) _ _ | exact hc s _ _ | exact ⟨rfl, rfl⟩

/-- The beginning of a lapse leaves another port's CPI and session as they are (R110). -/
theorem State.beginLapse_other {s : State} {p q : Port} (h : q ≠ p) (cause : LapseCause) :
    (s.beginLapse p cause).cpi q = s.cpi q ∧ (s.beginLapse p cause).session q = s.session q := by
  obtain ⟨h1, h2⟩ := State.endInFlight_other (s := ((s.setSession p
    { s.session p with
      state := .lapsing, cause, purged := s.queue.countP (Batch.purgedBy p), inLapseSet := true, remaining := 0
    }).setStaged p .empty).purge p) h (s.queue.find? (Batch.waitsFor p))
  exact ⟨h1, h2.trans ((State.setSession_session s p _ q).trans (if_neg h))⟩

/-- A tick of one port's lease leaves another port's CPI and session as they are (R106). -/
theorem State.tickLease_other {s : State} {p q : Port} (h : q ≠ p) :
    (s.tickLease p).cpi q = s.cpi q ∧ (s.tickLease p).session q = s.session q := by
  unfold State.tickLease
  split
  · exact State.beginLapse_other h _
  · split
    · exact ⟨rfl, (State.setSession_session s p _ q).trans (if_neg h)⟩
    · exact ⟨rfl, rfl⟩

/-! ### The law of the output is kept by an edge, by skipped periods and by the release of NRESET (R16, R40) -/

/-- One PCLK edge keeps the law of the output. -/
theorem OutputLaw.edge {s : State} (h : OutputLaw s) (hr : RangeLaw s) (hn : s.nreset = true) (a b : Sample) :
    OutputLaw (s.edge a b) := by
  obtain ⟨hw, hd, -⟩ := h
  have hW := hr.scan
  unfold ScanRecord.inRange at hW
  simp only [List.mem_cons, List.not_mem_nil, or_false, forall_eq_or_imp, forall_eq] at hw
  have hword : (s.periodWord.de = false → s.periodWord.data = .black)
      ∧ (s.periodWord.de = true → s.periodWord.hs = false ∧ s.periodWord.vs = false) := by
    simp only [State.periodWord, State.atActivePixel]
    refine ⟨fun _ => trivial, fun h => ?_⟩
    simp only [Bool.and_eq_true, beq_iff_eq, decide_eq_true_eq] at h
    exact ⟨decide_eq_false (by omega), by rw [h.1.1]; rfl⟩
  have hdue : ∀ t : State, t.timing = s.timing.advance s.live.scan → t.live.scan = s.live.scan →
      s.periodWord.de = t.sampleDue := by
    intro t h1 h2
    rw [State.sampleDue, h1, h2, Bool.eq_iff_iff]
    simp only [State.periodWord, State.atActivePixel, Timing.advance]
    split <;> simp <;> omega
  by_cases hs : s.sampleDue = true
  · rw [State.edge_of_sampleDue hs]
    refine ⟨?_, hdue _ rfl rfl, fun h => absurd (hn.symm.trans h) (by simp)⟩
    simp only [List.mem_cons, List.not_mem_nil, or_false, forall_eq_or_imp, forall_eq]
    exact ⟨hw.2.1, hw.2.2.1, ⟨fun h => absurd ((hd.trans hs).symm.trans h) (by simp), hw.2.2.2.2⟩, hword⟩
  · rw [State.edge_of_not_sampleDue (by simpa using hs)]
    refine ⟨?_, hdue _ rfl rfl, fun h => absurd (hn.symm.trans h) (by simp)⟩
    simp only [List.mem_cons, List.not_mem_nil, or_false, forall_eq_or_imp, forall_eq]
    exact ⟨hw.2.1, hw.2.2.1, hw.2.2.2, hword⟩

/-- The delay line after periods of an active line carries lawful words if it did before, the last of them newest. -/
theorem OutPipe.pushes_active {pipe : OutPipe}
    (h : ∀ w ∈ [pipe.pins, pipe.second, pipe.third, pipe.newest],
      (w.de = false → w.data = .black) ∧ (w.de = true → w.hs = false ∧ w.vs = false)) (n : Nat) :
    let w : OutWord := { data := .black, de := true, hs := false, vs := false }
    let p := pipe.pushes w n
    (∀ w ∈ [p.pins, p.second, p.third, p.newest],
      (w.de = false → w.data = .black) ∧ (w.de = true → w.hs = false ∧ w.vs = false)) ∧ (0 < n → p.newest = w) := by
  induction n with
  | zero => exact ⟨h, fun h => absurd h (Nat.lt_irrefl 0)⟩
  | succ n ih =>
    simp only [List.mem_cons, List.not_mem_nil, or_false, forall_eq_or_imp, forall_eq, OutPipe.pushes, OutPipe.push] at ih ⊢
    exact ⟨⟨ih.1.2.1, ih.1.2.2.1, ih.1.2.2.2, by simp, by simp⟩, fun _ => trivial⟩

/-- The periods that PIXEL_COMPOSE skips keep the law of the output. -/
theorem OutputLaw.skipTo {s : State} {x y : Nat} (h : OutputLaw s) (hn : s.nreset = true)
    (ha : s.timing.ahead x y = true) (hx : x < s.live.scan.width) (hy : y < s.live.scan.height) :
    OutputLaw (s.skipTo x y) := by
  obtain ⟨hw, hd, -⟩ := h
  simp only [Timing.ahead, Bool.and_eq_true, Bool.or_eq_true, beq_iff_eq, decide_eq_true_eq] at ha
  have hend : ∀ w ∈ [(OutPipe.lineEnd false).pins, (OutPipe.lineEnd false).second, (OutPipe.lineEnd false).third,
      (OutPipe.lineEnd false).newest], (w.de = false → w.data = .black) ∧ (w.de = true → w.hs = false ∧ w.vs = false) := by
    simp [OutPipe.lineEnd]
  refine ⟨?_, ?_, fun h => absurd (hn.symm.trans h) (by simp)⟩
  · simp only [State.skipTo, State.pipeAt]
    split
    · exact (OutPipe.pushes_active hend _).1
    · exact (OutPipe.pushes_active hw _).1
  · rw [State.sampleDue_skipTo ha.1 hx hy]
    simp only [State.skipTo, State.pipeAt]
    split
    · rw [(OutPipe.pushes_active hend _).2 (by omega)]
    · by_cases hp : s.timing.pixel ≤ x
      · rw [(OutPipe.pushes_active hw _).2 (by omega)]
      · have hk : min 4 (x + 1 - s.timing.pixel) = 0 := by omega
        rw [hk, OutPipe.pushes, hd]
        simp only [State.sampleDue, Bool.and_eq_true, beq_iff_eq, decide_eq_true_eq]
        exact ⟨⟨⟨ha.1, by omega⟩, by omega⟩, by omega⟩

/-- The release of NRESET keeps the law of the output. -/
theorem OutputLaw.beginField {s : State} (h : OutputLaw s) (hn : s.nreset = false) (newScan : Bool) :
    OutputLaw ({ s with nreset := true }.beginField newScan) :=
  ⟨h.words, (h.low hn).trans (by simp [State.beginField, Timing.startField, State.sampleDue]), fun h => nomatch h⟩

end Sys2Proof.Machine
end

