-- ==== Sys2Proof/WellFormed.lean ====
section
/-! DEFINITION. Which commands the outside can send: the ranges of a frame's payload and of a pixel's place. -/

namespace Sys2Proof

/-- A frame carries at most 61 payload bytes (R162). -/
def payloadFits (payload : List Byte) : Bool := payload.length ≤ 61

/-- The command can arrive at the part: its frame fits the 64-byte buffer (R162), and its pixel lies in the
largest active region (Table 3.1). exec is total and does not need this check. -/
def Instr.wellFormed : Instr → Bool
  | .status _ _ pl | .attach _ _ pl | .detach _ _ pl | .evict _ _ pl | .claim _ _ pl
  | .release _ _ pl | .revoke _ _ pl | .stagePlane _ _ pl | .stageColours _ _ pl | .stageOrder _ _ pl
  | .stageSignature _ _ pl | .stageGuard _ _ pl | .stageScan _ _ pl | .discard _ _ pl | .seal _ _ pl
  | .withdraw _ _ pl | .waitField _ _ pl | .readNotices _ _ pl | .queryPlane _ _ pl
  | .queryOrder _ _ pl | .queryColours _ _ pl | .queryScan _ _ pl | .queryGuard _ _ pl => payloadFits pl
  | .pixelCompose x y _ _ => x < 2048 && y < 2048
  | .claimAnyPlane _ _ _ | .writeAddressMatch _ _ _ | .frameTaken _ | .readAddressMatch _ _
  | .readEnd _ _ | .stretchLimitExpiry _ | .busHoldAbandon _ | .nresetAssert _ _ | .nresetRelease
  | .fieldStart | .waitFieldCompletion _ | .refInPulse | .blankStart | .streamFaultReport
  | .signatureCompare | .stageALapses | .stageBRevocations | .windowScanStep | .batchValidation
  | .waitCountdown | .sealTimeout _ | .leaseTick | .leaseExpiry _ => true

end Sys2Proof
end

