-- ==== Sys2Proof/Tests/Slice0.lean ====
section
/-! SUPPORT. The model's own tests: ill-formed commands refused by the check, one step for each command on a small state,
the spec's worked examples, and for each statement a state and operands that meet its hypotheses. -/

namespace Sys2Proof.Tests

open Sys2Proof Sys2Proof.Machine

/-! ### Ill-formed commands -/

theorem test_wf_payload_too_long : Instr.wellFormed (.seal 1 6 (List.replicate 62 0)) = false := by decide

theorem test_wf_payload_fits : Instr.wellFormed (.stageColours 1 6 (List.replicate 61 0)) = true := by decide

theorem test_wf_pixel_x : Instr.wellFormed (.pixelCompose 2048 0 ⟨.black, true⟩ ⟨.black, true⟩) = false := by decide

theorem test_wf_pixel_y : Instr.wellFormed (.pixelCompose 0 2048 ⟨.black, true⟩ ⟨.black, true⟩) = false := by decide

theorem test_no_word_spells_a_command : decodeTableWord 8 0x01 = none := by decide

/-! ### Small states -/

/-- The state a command leaves. -/
def after (c : Instr) (s : State) : State :=
  match exec c s with
  | .next t => t
  | .fault _ | .refused _ => s

/-- What stands in port p's slot after a command: completion, LOST, payload. -/
def answer (p : Port) (c : Instr) (s : State) : Option (Completion × Bool × List Byte) :=
  ((after c s).cpi p).slot.map fun r => (r.completion, r.lost, r.payload)

/-- The session of an Attached port. -/
def attachedAs (number : Byte) (role : Role) (lease : Byte) : Session :=
  { state := .attached, number, role, interval := lease, remaining := lease, inLapseSet := false, cause := .none,
    purged := 0 }

/-- Port 0 is the supervisor, with session 1 and no lease; port 1 is a member, with session 6 and lease 10. -/
def joined : State := (State.reset.setSession 0 (attachedAs 1 .supervisor 0)).setSession 1 (attachedAs 6 .member 10)

/-- Port 1 holds planes 5 and 7 and bank 2, port 0 holds plane 9, plane 3 is being taken from port 1; plane 5 is enabled
with bank 2, plane 7 is guarded and stands on top. -/
def owning : State :=
  { joined with
    planeClaims := (((joined.planeClaims.set 5 (.held 1)).set 7 (.held 1)).set 9 (.held 0)).set 3 (.revoking 1)
    bankClaims := joined.bankClaims.set 2 (.held 1)
    live :=
      { joined.live with
        planes := joined.live.planes.set 5 { PlaneRecord.reset with enabled := true, palette := some 2 }
        order := [0, 1, 2, 3, 4, 5, 6, 8, 9, 10, 11, 12, 13, 14, 15, 7]
        guards := joined.live.guards.set 7 (some .fresh) } }

/-- A batch of port 1's session 6 with the given number, target and wait flag. -/
def batchOf (number : Byte) (edits : List Edit) (target : Option Byte) (wait : Bool) : Batch :=
  { port := 1, session := 6, number, edits, cost := editsCost edits, target, wait, remainingWait := 32, state := .queued,
    member := false, reached := false, scanned := false, timedOut := none }

/-- As `owning`, with two edits staged by port 1 (example 4.8) and its batch 3 in the queue. -/
def staging : State :=
  { owning.setStaged 1 { list := [.order 7 .top, .order 5 (.above 7)], check := 0xFF08 } with
    queue := [batchOf 3 [.order 5 .bottom] none false], nextBatch := State.reset.nextBatch.set 1 4 }

/-- As `staging`, in an open window of field 0 at the given stage; batch 3 is a member. -/
def inWindow (stage : WindowStage) : State :=
  { staging with
    timing := { staging.timing with region := .blanking }
    queue := [{ batchOf 3 [.order 5 .bottom] none false with member := true }]
    window := some { budget := 2816, remaining := 2816, field := 0, stage, skipped := [] } }

/-- As `inWindow`, with batch 3 Applying. -/
def applying : State :=
  { inWindow .scan with
    queue := [{ batchOf 3 [.order 5 .bottom] none false with member := true, scanned := true, state := .applying }] }

/-- As `joined`, with port 1 Executing a command of the given code. -/
def executing (code : Byte) : State :=
  joined.setCpi 1 { Cpi.reset with state := .executing, inFlight := some code }

/-- As `joined`, with port 1 holding an OK response to STATUS with no payload. -/
def holding : State :=
  joined.setCpi 1 { Cpi.reset with state := .holding, slot := some ⟨.ok, false, 0x01, []⟩ }

/-- As `joined`, with port 1 Lapsing. -/
def lapsing : State :=
  joined.setSession 1
    { attachedAs 6 .member 10 with state := .lapsing, remaining := 0, inLapseSet := true, cause := .evicted, purged := 2 }

/-- As `joined`, in the vertical blanking after the window. -/
def blanking : State := { joined with timing := { joined.timing with region := .blanking } }

/-- As `joined`, with NRESET low. -/
def heldInReset : State := { joined with nreset := false }

/-! ### The frame commands -/

theorem test_status : answer 1 (.status 1 0 []) staging
    = some (.ok, false, [0, 1, 6, 1, 10, 10, 2, 0xFF, 0x08, 3, 1, 93, 7, 0, 0]) := by decide

theorem test_attach : answer 2 (.attach 2 0 [50]) joined = some (.ok, false, [1, 1, 50]) := by decide

theorem test_attach_member_needs_a_lease : answer 2 (.attach 2 0 [0]) joined = some (.badArg, false, []) := by decide

theorem test_detach_begins_a_lapse : answer 1 (.detach 1 6 []) owning = some (.ok, false, [6, 2]) := by decide

theorem test_detach_with_nothing_ends_the_session : answer 1 (.detach 1 6 []) joined = some (.ok, false, [6, 0]) := by decide

theorem test_evict : answer 0 (.evict 0 1 [1]) joined = some (.ok, false, [1, 6]) := by decide

theorem test_evict_is_for_the_supervisor : answer 1 (.evict 1 6 [0]) joined = some (.notSupervisor, false, []) := by decide

theorem test_claim : answer 1 (.claim 1 6 [0, 8]) owning = some (.ok, false, [0, 8, 0]) := by decide

theorem test_claim_owned : answer 1 (.claim 1 6 [0, 9]) owning = some (.owned, false, [0, 1]) := by decide

theorem test_claimAnyPlane : answer 1 (.claimAnyPlane 1 6 0xFF) owning = some (.ok, false, [0, 0, 0]) := by decide

theorem test_release : answer 1 (.release 1 6 [0, 7]) owning = some (.ok, false, [0, 7]) := by decide

theorem test_release_named_bank : answer 1 (.release 1 6 [1, 2]) owning = some (.inUse, false, [4]) := by decide

theorem test_revoke : answer 0 (.revoke 0 1 [0, 5]) owning = some (.ok, false, [1, 0]) := by decide

/-- Plane 5: the present mask 0x21 of enabled and mode, then yes, then Blended with alpha 4 (Table 11.2). -/
theorem test_stagePlane : ((after (.stagePlane 1 6 [5, 0x21, 1, 2, 4]) owning).staged 1).list
    = [.plane { plane := 5, enabled := some true, rect := none, source := none, fill := none, palette := none,
                mode := some (.blended 4) }] := by decide

/-- Bank 2, two entries from 254 on. -/
theorem test_stageColours : ((after (.stageColours 1 6 [2, 254, 2, 0, 1, 2, 3, 4, 5, 6]) owning).staged 1).list
    = [.colours 2 254 [⟨1, 2, 3⟩, ⟨4, 5, 6⟩]] := by decide

/-- Example 4.8, frame 1, with the answer as 11.5 lays it out. -/
theorem test_stageOrder : answer 1 (.stageOrder 1 6 [7, 0, 0]) owning
    = some (.ok, false, [1, 0, 2, 0xFF, 0xE3]) := by decide

/-- Example 4.8, frame 2. -/
theorem test_stagePlane_not_owner : answer 1 (.stagePlane 1 6 [9, 1, 1]) staging
    = some (.notOwner, false, [2, 0, 4, 0xFF, 0x08]) := by decide

theorem test_stageSignature : ((after (.stageSignature 1 6 [7, 1, 0, 2, 4, 7, 3, 1]) owning).staged 1).list
    = [.signature 7 (some 0x00020407) 3 .substitute] := by decide

theorem test_stageGuard : ((after (.stageGuard 0 1 [9, 1]) owning).staged 0).list = [.guard 9 true] := by decide

/-- Width 800 and follow yes: the present mask 0x11. -/
theorem test_stageScan : ((after (.stageScan 0 1 [0x11, 3, 0x20, 1]) owning).staged 0).list
    = [.scan { width := some 800, height := none, hblank := none, vblank := none, follow := some true, lossMargin := none,
               background := none, format := none }] := by decide

theorem test_discard : answer 1 (.discard 1 6 []) staging = some (.ok, false, [2]) := by decide

/-- Example 4.8, frame 4: batch 4 stands behind batch 3. -/
theorem test_seal : answer 1 (.seal 1 6 [2, 0xFF, 0x08, 0, 0, 0]) staging = some (.ok, false, [4, 0, 4, 0, 0]) := by decide

/-- Example 4.8: a SEAL with count 3 is refused, and the list is emptied. -/
theorem test_seal_count_mismatch : answer 1 (.seal 1 6 [3, 0xFF, 0x08, 0, 0, 0]) staging
    = some (.countMismatch, false, [2, 0xFF, 0x08]) := by decide

theorem test_withdraw : answer 1 (.withdraw 1 6 [3]) staging = some (.ok, false, [3, 0, 2, 0, 0]) := by decide

theorem test_withdraw_applying : answer 1 (.withdraw 1 6 [3]) applying = some (.tooLate, false, [3, 5, 0, 0, 0, 0]) := by decide

theorem test_waitField : (after (.waitField 1 6 [3]) joined).timing.waiters[(1 : Port)]
    = some { remaining := 3, due := none } := by decide

theorem test_readNotices : answer 1 (.readNotices 1 0 []) (joined.post 1 (.plain .referenceLost 9))
    = some (.ok, false, [1, 0, 7, 9, 0xFF, 0, 0xFF, 0, 0, 0]) := by decide

theorem test_queryPlane : answer 1 (.queryPlane 1 6 [5]) owning
    = some (.ok, false, [5, 1, 1, 0, 0, 0, 0, 0, 0, 0, 0, 0, 0, 0, 0, 2, 0, 0, 0, 0, 0, 0, 5]) := by decide

theorem test_queryOrder : answer 1 (.queryOrder 1 6 []) owning
    = some (.ok, false, [0, 1, 2, 3, 4, 5, 6, 8, 9, 10, 11, 12, 13, 14, 15, 7, 1]) := by decide

theorem test_queryColours : answer 1 (.queryColours 1 6 [2, 254, 2]) owning
    = some (.ok, false, [2, 254, 2, 1, 254, 254, 254, 255, 255, 255]) := by decide

theorem test_queryScan : answer 1 (.queryScan 1 6 []) joined
    = some (.ok, false, [2, 128, 1, 224, 0, 160, 45, 0, 16, 0, 0, 0, 0, 0, 2, 128, 1, 224, 0, 160, 45, 0, 16, 0, 0, 0, 0,
        0, 0, 0, 0, 0]) := by decide

theorem test_queryGuard : answer 1 (.queryGuard 1 6 []) owning
    = some (.ok, false, [1, 7, 1, 0, 0, 0, 0, 0, 3, 0, 0, 0, 0, 0]) := by decide

/-! ### The bus (example 10.10) -/

theorem test_writeAddressMatch : ((after (.writeAddressMatch 1 ⟨.start, 0x5A⟩ [1, 2]) joined).cpi 1).state = .receiving := by decide

theorem test_writeAddressMatch_refused : ((after (.writeAddressMatch 1 ⟨.start, 0x5A⟩ [1, 2]) (executing 0x19)).cpi 1).bus
    = .writeRefused := by decide

theorem test_frameTaken_short : answer 1 (.frameTaken 1) (after (.writeAddressMatch 1 ⟨.start, 0x5A⟩ [0x19, 6]) holding)
    = some (.frameError, true, [2, 2]) := by decide

theorem test_readAddressMatch_stretches : (after (.readAddressMatch 1 ⟨.start, 0x5B⟩) (executing 0x19)).sclHeld 1 = true := by decide

theorem test_readAddressMatch_none :
    (List.range 5).map ((after (.readAddressMatch 1 ⟨.start, 0x5B⟩) joined).sentByte 1) = [1, 0, 0, 0, 0xFF] := by decide

theorem test_readEnd_consumes : ((after (.readEnd 1 4) (after (.readAddressMatch 1 ⟨.start, 0x5B⟩) holding)).cpi 1).state
    = .idle := by decide

theorem test_readEnd_keeps : ((after (.readEnd 1 3) (after (.readAddressMatch 1 ⟨.start, 0x5B⟩) holding)).cpi 1).state
    = .holding := by decide

theorem test_stretchLimitExpiry :
    (List.range 4).map
      ((after (.stretchLimitExpiry 1) (after (.readAddressMatch 1 ⟨.start, 0x5B⟩) (executing 0x19))).sentByte 1)
    = [2, 0, 0x19, 0] := by decide

/-- The response given PENDING waits unread while the next write comes in (R170, log entry 32). -/
theorem test_attn_in_receiving :
    (after (.writeAddressMatch 1 ⟨.start, 0x5A⟩ []) (holding.setCpi 1 { holding.cpi 1 with pendingGiven := true })).attn 1
      = true := by decide

/-- After an abandonment the port ignores a repeated START and hears the next START (R169), as after a device reset (R172). -/
theorem test_bus_ignored_until_start :
    (let s := after (.busHoldAbandon 1) (after (.writeAddressMatch 1 ⟨.start, 0x5A⟩ []) joined)
     [((after (.writeAddressMatch 1 ⟨.repeated, 0x5A⟩ []) s).cpi 1).bus,
       ((after (.writeAddressMatch 1 ⟨.start, 0x5A⟩ []) s).cpi 1).bus,
       ((after (.readAddressMatch 1 ⟨.repeated, 0x5B⟩) (after (.readAddressMatch 1 ⟨.start, 0x11⟩) s)).cpi 1).bus,
       ((after (.readAddressMatch 1 ⟨.repeated, 0x5B⟩) joined).cpi 1).bus])
      = [.ignoring, .writing, .readHeld, .ignoring] := by decide

theorem test_busHoldAbandon : answer 1 (.busHoldAbandon 1) (after (.writeAddressMatch 1 ⟨.start, 0x5A⟩ []) joined)
    = some (.frameError, false, [4, 0]) := by decide

/-! ### Device reset, fields -/

theorem test_nresetAssert : ((after (.nresetAssert true 1) owning).address 2, (after (.nresetAssert true 1) owning).strapped)
    = (0x4E, some 1) := by decide

theorem test_nresetRelease : (after .nresetRelease heldInReset).srcFs = true := by decide

theorem test_fieldStart : (after .fieldStart blanking).timing.field = 1 := by decide

theorem test_waitFieldCompletion :
    answer 1 (.waitFieldCompletion 1) ((executing 0x20).setWaiter 1 (some { remaining := 0, due := some 7 }))
    = some (.ok, false, [7]) := by decide

theorem test_refInPulse_ignored_in_free : (after .refInPulse joined).timing.pendingRef = false := by decide

theorem test_refInPulse :
    (after .refInPulse { joined with timing := { joined.timing with refState := .locked } }).timing.pendingRef = true := by
  decide

theorem test_blankStart : (after .blankStart staging).window
    = some { budget := 2816, remaining := 2816, field := 0, stage := .lapses, skipped := [] } := by decide

/-- In period x + 1 the edge takes the samples of pixel x (R40): the held pins of `joined` are low and valid or not, and a
period later the pixel's word carries its colour. -/
theorem test_tick_takes_the_sample :
    (let s := { joined with timing := { joined.timing with pixel := 1 } }
     (s.tick.timing.pixel, s.sampleDue, { s with timing := { s.timing with pixel := 0 } }.sampleDue)) = (2, true, false) := by
  decide

/-- As `inWindow`, in the last period of blanking line V - 1: the next line begins with no window open (R38). -/
def lateWindow (stage : WindowStage) : State :=
  { inWindow stage with timing := { (inWindow stage).timing with line := 44, pixel := 799 } }

theorem test_tick_waits_for_the_window : (lateWindow .scan).tick.timing.line = 44
    ∧ { lateWindow .scan with window := none }.tick.timing.line = 45 := by decide

/-! ### Composition -/

/-- Table 1.6. -/
theorem test_blend : [0, 1, 4, 8, 12, 16].map (fun a => blendChannel a 255 0) = [0, 16, 64, 128, 191, 255] := by decide

/-- The snapshot of Table 1.7. -/
def threePlanes : Snapshot :=
  { planes :=
      (((Vector.replicate 16 PlaneRecord.reset).set 2
        { PlaneRecord.reset with enabled := true, rect := ⟨100, 100, 299, 199⟩, fill := ⟨200, 0, 0⟩ }).set 5
        { PlaneRecord.reset with
          enabled := true, rect := ⟨0, 0, 639, 479⟩, source := .streamA, mode := .keyed ⟨0, 255, 0⟩ }).set 9
        { PlaneRecord.reset with
          enabled := true, rect := ⟨250, 150, 400, 300⟩, fill := ⟨255, 255, 255⟩, mode := .blended 4 }
    order := allPlanes, palette := [], scan := { ScanRecord.reset with background := ⟨0, 0, 64⟩ }
    held := Vector.replicate 16 false, owners := (Vector.replicate 16 none).set 5 (some 1) }

/-- As `joined`, showing the snapshot of Table 1.7. -/
def showing : State := { joined with compose := { joined.compose with snapshot := threePlanes } }

/-- Table 1.8: the pixel (260, 160) with a valid sample. -/
theorem test_pixelCompose : (after (.pixelCompose 260 160 ⟨⟨0, 255, 0⟩, true⟩ ⟨.black, true⟩) showing).compose.pipe.third
    = { data := ⟨214, 64, 64⟩, de := true, hs := false, vs := false } := by decide

/-- Example 1.4: the same pixel with SA_VALID low; plane 5 is recorded for its owner. -/
theorem test_pixelCompose_invalid_sample :
    let t := after (.pixelCompose 260 160 ⟨⟨0, 255, 0⟩, false⟩ ⟨.black, true⟩) showing
    (t.compose.pipe.third.data, t.compose.faultA[(1 : Port)]) = (⟨64, 64, 64⟩, some 5) := by decide

/-- Chapter 2's example: bank 2 with entry 7 at (255, 128, 0), and the sample (12, 34, 7). -/
theorem test_indexed : indexedColour (paletteWrite [] (paletteCell 2 7) ⟨255, 128, 0⟩) (some 2) 7 = ⟨255, 128, 0⟩ := by
  decide

/-- The two folds of R143's example. -/
theorem test_signature : foldSignature (foldSignature 0 ⟨1, 2, 3⟩) ⟨0, 0, 1⟩ = 0x00020407 := by decide

/-- Tables 4.4 and 4.5. -/
theorem test_check : (foldChecks 0xFFFF [7, 0, 0], foldChecks 0xFFE3 [5, 2, 7]) = (0xFFE3, 0xFF08) := by decide

/-- The working copy of example 1.3, whose guarded planes are 3 and 14. -/
def bands (order : List Plane) : Work :=
  .start { Live.reset with order, guards := ((Live.reset.guards.set 3 (some .fresh)).set 14 (some .fresh)) }

/-- Table 1.4: the four edits, one after the other. -/
theorem test_order_edits :
    ((((bands [0, 1, 2, 4, 5, 6, 7, 8, 9, 10, 11, 12, 13, 15, 3, 14]).edit 1 (.order 7 .top)).live.order
        = [0, 1, 2, 4, 5, 6, 8, 9, 10, 11, 12, 13, 15, 7, 3, 14])
      ∧ (let w := (bands [0, 1, 2, 4, 5, 6, 8, 9, 10, 11, 12, 13, 15, 7, 3, 14]).edit 2 (.order 5 (.above 14))
         (w.live.order, w.clamped) = ([0, 1, 2, 4, 6, 8, 9, 10, 11, 12, 13, 15, 7, 5, 3, 14], true))
      ∧ (let w := (bands [0, 1, 2, 4, 6, 8, 9, 10, 11, 12, 13, 15, 7, 5, 3, 14]).edit 3 (.order 3 (.below 0))
         (w.live.order, w.clamped) = ([0, 1, 2, 4, 6, 8, 9, 10, 11, 12, 13, 15, 7, 5, 3, 14], true))
      ∧ (let w := (bands [0, 1, 2, 4, 6, 8, 9, 10, 11, 12, 13, 15, 7, 5, 3, 14]).edit 4 (.order 1 (.below 0))
         (w.live.order, w.clamped) = ([1, 0, 2, 4, 6, 8, 9, 10, 11, 12, 13, 15, 7, 5, 3, 14], false))) := by decide

/-! ### The work of a blanking -/

/-- As `owning`, with a Stream A fault of port 1 recorded, and its report due. -/
def faulted : State :=
  { owning with compose := { owning.compose with reportDue := true, faultA := owning.compose.faultA.set 1 (some 5) } }

theorem test_streamFaultReport : ((after .streamFaultReport faulted).noticeQueue 1).records
    = [{ Notice.plain .streamFault 0 with resource := some (.plane 5), d0 := 0 }] := by decide

/-- A record whose field gave the signature 2 where 1 was expected; one more mismatch reaches the limit. -/
def mismatched : GuardRecord :=
  { expected := some 1, latched := some 1, limit := 1, action := .substitute, runCount := 0, held := false,
    lastSignature := none, lastResult := .notCompared, changed := false
    note := some { enabled := true, clip := none, signature := 2 } }

/-- As `owning`, with that record on plane 7 and the comparison due. -/
def comparing : State :=
  { owning with
    monitor := { newScan := false, compareDue := true }
    live := { owning.live with guards := owning.live.guards.set 7 (some mismatched) } }

theorem test_signatureCompare : ((after .signatureCompare comparing).noticeQueue 1).records
    = [{ Notice.plain .signatureMismatch 0 with resource := some (.plane 7), d0 := 1 },
       { Notice.plain .signatureLimit 0 with subject := some 1, resource := some (.plane 7), d0 := 1, d1 := 1 }] := by
  decide

theorem test_signatureCompare_holds_the_plane : (after .signatureCompare comparing).live.isHeld 7 = true := by decide

/-- As `inWindow`, with port 1 in the Lapse Set. -/
def ending : State := (inWindow .lapses).setSession 1 (lapsing.session 1)

theorem test_stageALapses :
    let t := after .stageALapses ending
    (t.planeOwner 5, t.live.planes[(5 : Plane)].enabled, (t.noticeQueue 1).records, (t.noticeQueue 0).records)
      = (none, false, [{ Notice.plain .sessionEnded 0 with subject := some 1, d0 := 3, d1 := 2 }],
          [{ Notice.plain .portLapsed 0 with subject := some 1, d0 := 3 }]) := by decide

theorem test_stageBRevocations :
    let t := after .stageBRevocations (inWindow .revocations)
    (t.claimOf (.plane 3), (t.noticeQueue 1).records)
      = (.free, [{ Notice.plain .claimRevoked 0 with resource := some (.plane 3) }]) := by decide

theorem test_windowScanStep : ((after .windowScanStep (inWindow .scan)).queue.map (·.state),
    (after .windowScanStep (inWindow .scan)).window.map (·.remaining)) = ([.applying], some 2814) := by decide

theorem test_batchValidation :
    let t := after .batchValidation applying
    (t.live.order, t.queue, (t.noticeQueue 1).records)
      = ([5, 0, 1, 2, 3, 4, 6, 8, 9, 10, 11, 12, 13, 14, 15, 7], [],
          [{ Notice.plain .batchApplied 0 with batch := some 3 }]) := by decide

/-- A batch whose plane is another port's is rejected NOT_OWNER, and the list stands. -/
theorem test_batchValidation_rejects :
    let t := after .batchValidation
      { applying with queue := [{ batchOf 3 [.order 9 .bottom] none false with member := true, state := .applying }] }
    (t.live.order == applying.live.order, (t.noticeQueue 1).records)
      = (true, [{ Notice.plain .batchRejected 0 with
                  batch := some 3, resource := some (.plane 9), d0 := 0x22, d1 := 1 }]) := by decide

/-- A waiting batch with one window left runs out in the countdown of the window of field 0. -/
def runningOut : State :=
  { inWindow .countdown with queue := [{ batchOf 3 [] none true with member := true, remainingWait := 1 }] }

theorem test_waitCountdown : ((after .waitCountdown runningOut).queue.map (·.timedOut), (after .waitCountdown runningOut).window)
    = ([some 0], none) := by decide

/-- As `executing`, with the wait of batch 3 run out at field 0. -/
def ranOut : State := { executing 0x19 with queue := [{ batchOf 3 [] none true with timedOut := some 0 }] }

theorem test_sealTimeout : answer 1 (.sealTimeout 1) ranOut = some (.timeout, false, [3, 0, 0, 0, 0, 0]) := by decide

/-! ### Leases -/

theorem test_leaseTick : ((after .leaseTick joined).session 1).remaining = 9 := by decide

/-- As `joined`, with one tick left of port 1's lease. -/
def expired : State := joined.setSession 1 { attachedAs 6 .member 10 with remaining := 1 }

/-- The tick that lowers the lease remaining to 0 is the expiry (R106). -/
theorem test_leaseTick_expires : ((after .leaseTick expired).session 1)
    = { attachedAs 6 .member 10 with state := .lapsing, remaining := 0, inLapseSet := true, cause := .expired } := by
  decide

theorem test_leaseExpiry : ((after (.leaseExpiry 1) expired).session 1).cause = .expired := by decide

/-! ### The statements' hypotheses are met

One theorem for each statement that has hypotheses, with a state for each of its clauses. -/

/-- As `holding`, with port 1 receiving a frame of the given bytes. -/
def receiving (data : List Byte) : State := after (.writeAddressMatch 1 ⟨.start, 0x5A⟩ data) holding

/-- A write that Executing did not acknowledge. -/
def refusing : State := after (.writeAddressMatch 1 ⟨.start, 0x5A⟩ []) (executing 0x19)

/-- A read of the held response. -/
def readingHeld : State := after (.readAddressMatch 1 ⟨.start, 0x5B⟩) holding

/-- The port holds the response and listens to the bus, after a read of nothing. -/
def listening : State := after (.readEnd 1 0) readingHeld

/-- A read of NONE. -/
def readingNone : State := after (.readAddressMatch 1 ⟨.start, 0x5B⟩) owning

/-- A read that Executing stretches. -/
def stretched : State := after (.readAddressMatch 1 ⟨.start, 0x5B⟩) (executing 0x19)

/-- A read of PENDING. -/
def readingPending : State := after (.stretchLimitExpiry 1) stretched

theorem ready_owning : owning.Ready 1 := ⟨rfl, .inr rfl, .inl rfl⟩

theorem inSession_owning : owning.InSession 1 6 := ⟨by decide, by decide⟩

theorem ready_staging : staging.Ready 1 := ⟨rfl, .inr rfl, .inl rfl⟩

theorem inSession_staging : staging.InSession 1 6 := ⟨by decide, by decide⟩

theorem ready_supervisor : owning.Ready 0 ∧ owning.InSession 0 1 ∧ owning.supervisor = some 0 :=
  ⟨⟨rfl, .inr rfl, .inl rfl⟩, ⟨by decide, by decide⟩, by decide⟩

theorem ready_holding : holding.Ready 1 ∧ holding.InSession 1 6 := ⟨⟨rfl, .inr rfl, .inr rfl⟩, ⟨by decide, by decide⟩⟩

theorem witness_IdleStepIsOnePixelPeriod :
    (joined.pending = [] ∧ joined.nreset = true ∧ joined.eventDue = false)
    ∧ (heldInReset.pending = [] ∧ heldInReset.nreset = false)
    ∧ (let s := { joined with timing := { joined.timing with line := 480 } }
       s.pending = [] ∧ s.eventDue = true)
    ∧ (let s := { joined with timing := { joined.timing with line := 479, pixel := 640 } }
       s.pending = [] ∧ s.eventDue = false ∧ s.sampleDue = true)
    ∧ (let s := { joined with timing := { joined.timing with pixel := 641 } }
       s.eventDue = false ∧ s.sampleDue = false)
    ∧ (let s := { blanking with timing := { blanking.timing with line := 45 } }
       s.pending = [] ∧ s.eventDue = true ∧ s.timing.refState = .free)
    ∧ ((lateWindow .scan).pending = [] ∧ (lateWindow .scan).window.isSome = true ∧ (lateWindow .scan).eventDue = true) := by
  decide

theorem witness_DeviceResetAndItsRelease : heldInReset.nreset = false := by decide

theorem witness_FrameCommandIsOneWriteTransaction :
    (owning.Ready 1 ∧ holding.Ready 1 ∧ ([2, 254, 2] : List Byte).length ≤ 61)
    ∧ ((executing 0x19).nreset = true ∧ ((executing 0x19).cpi 1).bus = .ignoring
      ∧ ((executing 0x19).cpi 1).state = .executing)
    ∧ ((receiving []).nreset = true ∧ ((receiving []).cpi 1).bus = .writing)
    ∧ ((refusing.nreset = true ∧ (refusing.cpi 1).bus = .writeRefused)
      ∧ (readingHeld.nreset = true ∧ (readingHeld.cpi 1).bus = .readHeld)
      ∧ (readingNone.cpi 1).bus = .readNone ∧ (readingPending.cpi 1).bus = .readPending 0x19)
    ∧ (stretched.cpi 1).bus = .stretching ∧ heldInReset.nreset = false :=
  ⟨⟨ready_owning, ready_holding.1, by decide⟩, by decide, by decide, by decide, by decide⟩

theorem witness_CommonChecksRefuseInOrder :
    (State.reset.Ready 1 ∧ (State.reset.session 1).state = .detached)
    ∧ (lapsing.Ready 1 ∧ (lapsing.session 1).state = .lapsing)
    ∧ (owning.Ready 1 ∧ (owning.session 1).state = .attached ∧ (5 : Byte) ≠ (owning.session 1).number)
    ∧ (owning.Ready 1 ∧ owning.InSession 1 6 ∧ owning.supervisor ≠ some 1) :=
  ⟨⟨⟨rfl, .inr rfl, .inl rfl⟩, by decide⟩, ⟨⟨rfl, .inr rfl, .inl rfl⟩, by decide⟩, ⟨ready_owning, by decide, by decide⟩,
    ⟨ready_owning, inSession_owning, by decide⟩⟩

theorem witness_StatusReportsThePort : holding.Ready 1 ∧ ([0] : List Byte) ≠ [] := ⟨ready_holding.1, by decide⟩

theorem witness_AttachBeginsASessionOrIsRefused :
    (joined.Ready 2 ∧ (joined.session 2).state = .detached ∧ (joined.strapped ≠ some 2 → (50 : Byte) ≠ 0))
    ∧ (State.reset.Ready 0 ∧ (State.reset.session 0).state = .detached
      ∧ (State.reset.strapped ≠ some 0 → (0 : Byte) ≠ 0))
    ∧ (joined.session 1).state = .attached
    ∧ (joined.strapped ≠ some 2 ∧ ([0] : List Byte) = [0]) :=
  ⟨⟨⟨rfl, .inr rfl, .inl rfl⟩, by decide, by decide⟩, ⟨⟨rfl, .inr rfl, .inl rfl⟩, by decide, by decide⟩, by decide, by decide⟩

theorem witness_DetachEndsTheSessionOrBeginsALapse :
    (joined.Ready 1 ∧ joined.InSession 1 6 ∧ (∀ q : Plane, joined.planeOwner q ≠ some 1)
      ∧ (∀ b : Bank, joined.bankOwner b ≠ some 1) ∧ ∀ b ∈ joined.queue, b.port ≠ 1)
    ∧ (owning.Ready 1 ∧ owning.InSession 1 6 ∧ (∃ q : Plane, owning.planeOwner q = some 1)
      ∧ ∃ b : Bank, owning.bankOwner b = some 1)
    ∧ ∃ b ∈ staging.queue, b.port = 1 :=
  ⟨⟨⟨rfl, .inr rfl, .inl rfl⟩, ⟨by decide, by decide⟩, by decide, by decide, by decide⟩,
    ⟨ready_owning, inSession_owning, ⟨5, by decide⟩, ⟨2, by decide⟩⟩, ⟨_, .head _, rfl⟩⟩

theorem witness_EvictBeginsALapse :
    (owning.Ready 0 ∧ owning.InSession 0 1 ∧ owning.supervisor = some 0)
    ∧ ((1 : Port) ≠ 0 ∧ (owning.session 1).state = .attached)
    ∧ (lapsing.Ready 0 ∧ lapsing.InSession 0 1 ∧ lapsing.supervisor = some 0 ∧ (lapsing.session 1).state = .lapsing)
    ∧ (owning.session 2).state = .detached ∧ ∀ r : Port, ([3] : List Byte) ≠ [byteOf r.val] :=
  ⟨ready_supervisor, by decide, ⟨⟨rfl, .inr rfl, .inl rfl⟩, ⟨by decide, by decide⟩, by decide, by decide⟩, by decide, by decide⟩

theorem witness_BeginningOfALapseIsOneEvent :
    ((staging.history 1).length ≤ 8 ∧ (staging.cpi 1).state ≠ .executing)
    ∧ (let s := (executing 0x20).setWaiter 1 (some { remaining := 2, due := none })
       (s.cpi 1).state = .executing ∧ s.timing.waiters[(1 : Port)] = some { remaining := 2, due := none })
    ∧ ((ranOut.cpi 1).state = .executing ∧ ranOut.timing.waiters[(1 : Port)] = none
      ∧ ranOut.queue = [] ++ { batchOf 3 [] none true with timedOut := some 0 } :: []) := by decide

theorem witness_CompletionArrivesAtItsPort :
    ((executing 0x19).cpi 1).state = .executing ∧ ((executing 0x19).cpi 1).inFlight = some 0x19 := by decide

theorem witness_ClaimTakesAFreeResource :
    (owning.Ready 1 ∧ owning.InSession 1 6)
    ∧ (owning.claimOf (.plane 0) = .free ∧ owning.claimOf (.bank 3) = .free ∧ owning.claimOf (.plane 15) = .free)
    ∧ owning.claimOf (.plane 9) = .held 0 ∧ owning.claimOf (.plane 3) = .revoking 1
    ∧ (∀ x : Resource, ([1, 4] : List Byte) ≠ x.bytes) ∧ ∀ n : Byte, ([1, 4] : List Byte) ≠ [2, n] := by
  refine ⟨⟨ready_owning, inSession_owning⟩, by decide, by decide, by decide, ?_, ?_⟩
  · intro x
    cases x with
    | plane q => simp [Resource.bytes]
    | bank b => revert b; decide
  · intro n
    simp

theorem witness_ClaimAnyPlaneTakesTheLowest :
    (owning.Ready 1 ∧ owning.InSession 1 6)
    ∧ (owning.claimOf (.plane 0) = .free ∧ owning.live.isGuarded 0 = false)
    ∧ (let s := { owning with planeClaims := Vector.replicate 16 (.held 1) }
       s.Ready 1 ∧ s.InSession 1 6 ∧ ∀ q : Plane, s.claimOf (.plane q) ≠ .free ∨ s.live.isGuarded q = true) :=
  ⟨⟨ready_owning, inSession_owning⟩, by decide, ⟨⟨rfl, .inr rfl, .inl rfl⟩, ⟨by decide, by decide⟩, by decide⟩⟩

/-- As `owning`, with no plane that names a bank. -/
def unnamed : State := { owning with live := joined.live }

theorem witness_ReleaseIsJudgedInTheOrderOfItsTable :
    (owning.Ready 1 ∧ owning.InSession 1 6)
    ∧ (owning.claimOf (.plane 7) = .held 1 ∧ owning.live.planes[(7 : Plane)].enabled = false
      ∧ (∀ e ∈ (owning.staged 1).list, e.touched ≠ some (.plane 7)) ∧ ∀ b ∈ owning.queue, b.port ≠ 1)
    ∧ (unnamed.claimOf (.bank 2) = .held 1
      ∧ (∀ q : Plane, unnamed.planeOwner q = some 1 → unnamed.live.planes[q].palette ≠ some 2)
      ∧ (∀ e ∈ (unnamed.staged 1).list, e.namesBank 2 = false) ∧ ∀ x ∈ unnamed.queue, x.port ≠ 1)
    ∧ owning.claimOf (.plane 0) = .free ∧ ((0 : Port) ≠ 1 ∧ owning.claimOf (.plane 9) = .held 0)
    ∧ owning.claimOf (.plane 3) = .revoking 1
    ∧ (owning.claimOf (.plane 5) = .held 1 ∧ owning.live.planes[(5 : Plane)].enabled = true)
    ∧ (staging.claimOf (.plane 7) = .held 1 ∧ staging.live.planes[(7 : Plane)].enabled = false
      ∧ .order 7 .top ∈ (staging.staged 1).list)
    ∧ (staging.claimOf (.bank 2) = .held 1 ∧ staging.planeOwner 5 = some 1
      ∧ staging.live.planes[(5 : Plane)].palette = some 2)
    ∧ (let s := { owning with queue := [batchOf 3 [.order 7 .top] none false] }
       s.claimOf (.plane 7) = .held 1 ∧ s.live.planes[(7 : Plane)].enabled = false
         ∧ (∀ e ∈ (s.staged 1).list, e.touched ≠ some (.plane 7))
         ∧ ∃ x ∈ s.queue, x.port = 1 ∧ ∃ e ∈ x.edits, e.touched = some (.plane 7))
    ∧ (let s := unnamed.setStaged 1 { list := [.colours 2 0 [.black]], check := 0xFFFF }
       s.claimOf (.bank 2) = .held 1 ∧ (∀ q : Plane, s.planeOwner q = some 1 → s.live.planes[q].palette ≠ some 2)
         ∧ ∃ e ∈ (s.staged 1).list, e.namesBank 2 = true)
    ∧ (let s := { unnamed with queue := [batchOf 3 [.colours 2 0 [.black]] none false] }
       s.claimOf (.bank 2) = .held 1 ∧ (∀ q : Plane, s.planeOwner q = some 1 → s.live.planes[q].palette ≠ some 2)
         ∧ (∀ e ∈ (s.staged 1).list, e.namesBank 2 = false)
         ∧ ∃ x ∈ s.queue, x.port = 1 ∧ ∃ e ∈ x.edits, e.namesBank 2 = true) :=
  ⟨⟨ready_owning, inSession_owning⟩, by decide, by decide, by decide, by decide, by decide, by decide, by decide, by decide,
    by decide, by decide, by decide⟩

theorem witness_RevokeMarksAClaim :
    (owning.Ready 0 ∧ owning.InSession 0 1 ∧ owning.supervisor = some 0)
    ∧ owning.claimOf (.plane 0) = .free ∧ owning.claimOf (.plane 5) = .held 1 ∧ owning.claimOf (.plane 3) = .revoking 1
    ∧ ∀ x : Resource, ([0] : List Byte) ≠ x.bytes :=
  ⟨ready_supervisor, by decide, by decide, by decide, by intro x; cases x <;> simp [Resource.bytes]⟩

theorem witness_StageAppendsTheEditItsFrameCarries :
    (owning.Ready 1 ∧ owning.InSession 1 6 ∧ owning.poolUsed < 96 ∧ owning.recordsInUse 1 < 48)
    ∧ ((Edit.signature 7 none 15 .notify).wf ∧ owning.MayStage 1 (.signature 7 none 15 .notify))
    ∧ ((Edit.colours 2 240 (List.replicate 16 .black)).wf
      ∧ owning.MayStage 1 (.colours 2 240 (List.replicate 16 .black)))
    ∧ ((Edit.guard 9 true).wf ∧ owning.MayStage 0 (.guard 9 true)) := by
  refine ⟨⟨ready_owning, inSession_owning, by decide, by decide⟩, ⟨?_, ?_⟩, ⟨?_, ?_⟩, ⟨trivial, ?_⟩⟩
  · exact ⟨by decide, by decide⟩
  · exact ⟨by rintro r ⟨⟩; decide, by rintro ⟨⟩, by rintro q ⟨⟩; decide⟩
  · exact ⟨by decide, by decide, by decide, by decide⟩
  · exact ⟨by rintro r ⟨⟩; decide, by rintro ⟨⟩, by rintro q ⟨⟩⟩
  · exact ⟨by rintro r ⟨⟩, fun _ => by decide, by rintro q ⟨⟩⟩

/-- Port 1 with 48 records in use. -/
def atCap : State := owning.setStaged 1 { list := List.replicate 48 (.order 5 .top), check := 0xFFFF }

/-- The pool exhausted: 48 records of port 1 and 48 of port 0. -/
def poolEmpty : State := atCap.setStaged 0 { list := List.replicate 48 (.guard 9 true), check := 0xFFFF }

/-- No edit has the payload of an ORDER frame with form 9 (R58). -/
theorem order_form_nine (e : Edit) (ignored : BitVec 32) (_ : e.wf) (_ : e.command = .stageOrder) :
    ([5, 9, 0] : List Byte) ≠ e.payload ignored := by
  cases e with
  | order q form => cases form <;> simp [Edit.payload, orderBytes]
  | _ => simp_all [Edit.command]

theorem witness_RefusedStageKeepsTheList :
    (owning.Ready 1 ∧ owning.InSession 1 6 ∧ owning.Ready 0 ∧ owning.supervisor = some 0)
    ∧ (Command.stageScan.lengthFits [0x11, 3, 0x20] = false ∧ Command.stagePlane.lengthFits [5, 0xC0, 0] = false)
    ∧ (Command.stageOrder.lengthFits [9, 0, 0] = true ∧ ([9, 0, 0] : List Byte).head? = some (byteOf (9 : Plane).val)
      ∧ owning.claimOf (.plane 9) ≠ .held 1)
    ∧ (Command.stageColours.lengthFits [3, 0, 0, 0] = true ∧ ([3, 0, 0, 0] : List Byte).head? = some (byteOf (3 : Bank).val)
      ∧ owning.claimOf (.bank 3) ≠ .held 1)
    ∧ (Command.stageSignature.lengthFits [5, 0, 0, 0, 0, 0, 1, 0] = true ∧ owning.claimOf (.plane 5) = .held 1
      ∧ owning.live.isGuarded 5 = false)
    ∧ ((Command.stageOrder.lengthFits [5, 9, 0] = true ∧ ([5, 9, 0] : List Byte).head? = some (byteOf (5 : Plane).val)
        ∧ owning.claimOf (.plane 5) = .held 1)
      ∧ ∀ (e : Edit) (ignored : BitVec 32), e.wf → e.command = .stageOrder → ([5, 9, 0] : List Byte) ≠ e.payload ignored)
    ∧ (poolEmpty.Ready 1 ∧ poolEmpty.InSession 1 6 ∧ poolEmpty.MayStage 1 (.order 5 .top) ∧ 96 ≤ poolEmpty.poolUsed)
    ∧ (atCap.Ready 1 ∧ atCap.InSession 1 6 ∧ atCap.MayStage 1 (.order 5 .top) ∧ atCap.poolUsed < 96
      ∧ 48 ≤ atCap.recordsInUse 1) :=
  ⟨⟨ready_owning, inSession_owning, ready_supervisor.1, ready_supervisor.2.2⟩, by decide, by decide, by decide, by decide,
    ⟨by decide, order_form_nine⟩,
    ⟨⟨rfl, .inr rfl, .inl rfl⟩, ⟨by decide, by decide⟩, ⟨by rintro r ⟨⟩; decide, by rintro ⟨⟩, by rintro q ⟨⟩⟩, by decide⟩,
    ⟨⟨rfl, .inr rfl, .inl rfl⟩, ⟨by decide, by decide⟩, ⟨by rintro r ⟨⟩; decide, by rintro ⟨⟩, by rintro q ⟨⟩⟩, by decide,
      by decide⟩⟩

theorem witness_DiscardEmptiesTheStagedList :
    (staging.Ready 1 ∧ staging.InSession 1 6 ∧ ([0] : List Byte) ≠ []) ∧ ¬ staging.InSession 1 5 :=
  ⟨⟨ready_staging, inSession_staging, by decide⟩, by unfold State.InSession; decide⟩

theorem witness_SealIsJudgedInTheOrderOfItsTable :
    (staging.Ready 1 ∧ staging.InSession 1 6)
    ∧ ∀ count check target ignored wait, ([2, 0xFF, 0x08, 2, 0, 0] : List Byte) ≠ sealPayload count check target ignored wait := by
  refine ⟨⟨ready_staging, inSession_staging⟩, ?_⟩
  intro count check target ignored wait
  cases target <;> cases wait <;> simp [sealPayload, be16, flagByte]

theorem witness_WithdrawFindsTheBatchOrItsOutcome :
    (staging.Ready 1 ∧ staging.InSession 1 6)
    ∧ (let b := batchOf 3 [.order 5 .bottom] none false
       staging.queue = [] ++ b :: [] ∧ b.port = 1 ∧ b.session = (staging.session 1).number ∧ b.number = 3
         ∧ b.state = .queued)
    ∧ (applying.Ready 1 ∧ applying.InSession 1 6 ∧ applying.queue.map (·.state) = [.applying])
    ∧ (let s := owning.setHistory 1 [{ number := 3, outcome := .applied true, field := 7 }]
       s.Ready 1 ∧ s.InSession 1 6 ∧ s.queue = []
         ∧ s.history 1 = [] ++ { number := 3, outcome := .applied true, field := 7 } :: [])
    ∧ (∀ e ∈ staging.history 1, e.number ≠ 5)
    ∧ (List.replicate 8 ({ number := 3, outcome := .withdrawn, field := 7 } : HistoryEntry)).length ≤ 8 :=
  ⟨⟨ready_staging, inSession_staging⟩, by decide, ⟨⟨rfl, .inr rfl, .inl rfl⟩, ⟨by decide, by decide⟩, by decide⟩,
    ⟨⟨rfl, .inr rfl, .inl rfl⟩, ⟨by decide, by decide⟩, by decide, by decide⟩, by decide, by decide⟩

theorem witness_WaitFieldBecomesAWaiter :
    (owning.Ready 1 ∧ owning.InSession 1 6) ∧ (1 ≤ (1 : Byte).toNat ∧ (16 : Byte).toNat ≤ 16)
    ∧ (0 : Byte).toNat = 0 ∧ 16 < (17 : Byte).toNat :=
  ⟨⟨ready_owning, inSession_owning⟩, by decide, by decide, by decide⟩

theorem witness_ReadNoticesDeliversTheOldest : State.reset.Ready 2 ∧ ([0] : List Byte) ≠ [] :=
  ⟨⟨rfl, .inr rfl, .inl rfl⟩, by decide⟩

theorem witness_QueriesReadTheLiveState :
    (owning.Ready 1 ∧ owning.InSession 1 6)
    ∧ (1 ≤ (16 : Byte).toNat ∧ (16 : Byte).toNat ≤ 16 ∧ (240 : Byte).toNat + (16 : Byte).toNat ≤ 256)
    ∧ 16 ≤ (16 : Byte).toNat ∧ 4 ≤ (4 : Byte).toNat ∧ 256 < (241 : Byte).toNat + (16 : Byte).toNat :=
  ⟨⟨ready_owning, inSession_owning⟩, by decide, by decide, by decide, by decide⟩

theorem witness_WriteAddressMatchFillsTheBuffer :
    ((owning.cpi 1).bus = .ignoring ∧ owning.nreset = true ∧ (owning.cpi 1).state = .idle)
    ∧ ((listening.cpi 1).bus = .free ∧ listening.nreset = true ∧ (listening.cpi 1).state = .holding)
    ∧ (((executing 0x19).cpi 1).bus = .ignoring ∧ ((executing 0x19).cpi 1).state = .executing)
    ∧ heldInReset.nreset = false
    ∧ (0x58 : Byte) ≠ byteOf (((if owning.addrsel then 0x4C else 0x2C) + (1 : Port).val) * 2)
    ∧ (refusing.nreset = true ∧ (refusing.cpi 1).bus = .writeRefused)
    ∧ (readingPending.nreset = true ∧ (readingPending.cpi 1).bus = .readPending 0x19)
    ∧ (stretched.nreset = true ∧ (stretched.cpi 1).bus = .stretching) := by decide

theorem witness_FrameTakenJudgesTheBuffer :
    ((receiving []).nreset = true ∧ ((receiving []).cpi 1).bus = .writing ∧ ((receiving []).cpi 1).buffer = []
      ∧ ((receiving []).cpi 1).long = false)
    ∧ ((receiving (List.replicate 65 0)).cpi 1).long = true
    ∧ (((receiving [1, 2]).cpi 1).long = false ∧ ((receiving [1, 2]).cpi 1).buffer.length = 2)
    ∧ (((receiving [1, 0, 62]).cpi 1).buffer = [1, 0, 62] ∧ 61 < (62 : Byte).toNat)
    ∧ (((receiving [0x7F, 0, 1, 9]).cpi 1).buffer = [0x7F, 0, 1, 9] ∧ ([9] : List Byte).length = (1 : Byte).toNat)
    ∧ (∀ k : Command, k.code ≠ 0x7F)
    ∧ (refusing.nreset = true ∧ (refusing.cpi 1).bus = .writeRefused) ∧ (stretched.cpi 1).bus = .stretching :=
  ⟨by decide, by decide, by decide, by decide, by decide, by intro k; cases k <;> decide, by decide, by decide⟩

theorem witness_ReadAddressMatchChoosesTheResponse :
    ((listening.cpi 1).bus = .free ∧ listening.nreset = true ∧ (listening.cpi 1).state = .holding
      ∧ (listening.cpi 1).slot = some ⟨.ok, false, 0x01, []⟩)
    ∧ (((executing 0x19).cpi 1).bus = .ignoring ∧ ((executing 0x19).cpi 1).state = .executing)
    ∧ ((owning.cpi 1).bus = .ignoring ∧ owning.nreset = true ∧ (owning.cpi 1).state = .idle)
    ∧ heldInReset.nreset = false
    ∧ (refusing.nreset = true ∧ (refusing.cpi 1).bus = .writeRefused)
    ∧ (readingNone.nreset = true ∧ (readingNone.cpi 1).bus = .readNone)
    ∧ (stretched.nreset = true ∧ (stretched.cpi 1).bus = .stretching) := by decide

theorem witness_ReadEndConsumesAFullyReadResponse :
    (readingHeld.nreset = true ∧ (readingHeld.cpi 1).bus = .readHeld
      ∧ (readingHeld.cpi 1).slot = some ⟨.ok, false, 0x01, []⟩)
    ∧ (readingNone.cpi 1).bus = .readNone ∧ (readingPending.cpi 1).bus = .readPending 0x19 := by decide

theorem witness_StretchAndHoldLimitsEnd :
    (stretched.nreset = true ∧ (stretched.cpi 1).bus = .stretching ∧ (stretched.cpi 1).inFlight = some 0x19)
    ∧ ((receiving []).cpi 1).bus = .writing ∧ (listening.cpi 1).bus = .free ∧ (holding.cpi 1).bus = .ignoring := by decide

theorem portLaw_reset (c : Cpi) (h : c = Cpi.reset) : c.Lawful := by
  subst h
  constructor <;> decide

theorem witness_AttnFollowsNoticesAndPendingResponse :
    (holding.cpi 1).bus = .ignoring ∧ (listening.cpi 1).bus = .free := by decide

theorem witness_NoticeQueueTakesAPost :
    ((owning.session 1).state ≠ .detached ∧ (owning.noticeQueue 1).records.length < 16)
    ∧ (let s := owning.setNotices 1 { records := List.replicate 16 (.plain .referenceLost 0), dropped := 254 }
       16 ≤ (s.noticeQueue 1).records.length ∧ (s.noticeQueue 1).dropped < 255)
    ∧ (let s := owning.setNotices 1 { records := List.replicate 16 (.plain .referenceLost 0), dropped := 255 }
       16 ≤ (s.noticeQueue 1).records.length ∧ 255 ≤ (s.noticeQueue 1).dropped)
    ∧ ((owning.session 2).state = .detached ∧ NoticeKind.streamFault ≠ .sessionEnded) := by decide

theorem witness_FieldStartBeginsAField :
    blanking.nreset = true ∧ blanking.timing.region = .blanking ∧ blanking.window = none := by decide

theorem witness_FieldStartMovesTheReferenceAndPosts :
    (blanking.nreset = true ∧ blanking.timing.region = .blanking ∧ blanking.window = none)
    ∧ exec .fieldStart blanking = .next (after .fieldStart blanking)
    ∧ (let s := { blanking with timing := { blanking.timing with refState := .locked, pendingRef := true } }
       s.window = none ∧ s.timing.refState = .locked ∧ s.timing.pendingRef = true) :=
  ⟨by decide, rfl, by decide⟩

theorem witness_OverdueCommandsComplete :
    (let s := (executing 0x20).setWaiter 1 (some { remaining := 0, due := some 7 })
     s.nreset = true ∧ s.timing.waiters[(1 : Port)] = some { remaining := 0, due := some 7 })
    ∧ (ranOut.nreset = true ∧ ranOut.queue = [] ++ { batchOf 3 [] none true with timedOut := some 0 } :: [])
    ∧ (let b := { batchOf 3 [] none true with timedOut := some 0 }
       b.wait = true ∧ b.timedOut = some 0)
    ∧ (batchOf 3 [] none true).timedOut = none ∧ (batchOf 3 [] none false).wait = false := by decide

theorem witness_RefInPulseSetsTheFlag :
    (owning.nreset = true ∧ owning.timing.refState = .free)
    ∧ { owning with timing := { owning.timing with refState := .holdover } }.timing.refState ≠ .free := by decide

theorem witness_BlankStartOpensTheWindow : staging.nreset = true ∧ staging.timing.region = .active := by decide

theorem witness_PixelComposeDrivesTheOutput :
    (showing.nreset = true ∧ showing.timing.region = .active ∧ showing.live.scan.width = 640
      ∧ showing.live.scan.height = 480)
    ∧ (showing.timing.line = 0 ∧ showing.timing.pixel ≤ 639) ∧ showing.timing.line < 479
    ∧ (let s := { showing with timing := { showing.timing with pixel := 640 } }
       s.timing.line = 0 ∧ s.timing.pixel ≤ 639 + 1)
    ∧ (let pipe := showing.compose.pipe
       [pipe.pins, pipe.second, pipe.third, pipe.newest] = [pipe.pins] ++ [pipe.second, pipe.third, pipe.newest]) := by
  decide

theorem witness_EachCoveringPlaneIsPainted :
    (0 < threePlanes.scan.width ∧ 0 < threePlanes.scan.height)
    ∧ (let r := threePlanes.planes[(5 : Plane)]
       r.enabled = true ∧ r.source = .streamA ∧ r.rect.x0.val ≤ 639 ∧ 639 ≤ min r.rect.x1.val (threePlanes.scan.width - 1)
         ∧ r.rect.y0.val ≤ 479 ∧ 479 ≤ min r.rect.y1.val (threePlanes.scan.height - 1))
    ∧ threePlanes.held[(5 : Plane)] = false ∧ threePlanes.owners[(5 : Plane)] = some 1
    ∧ (let snap := { threePlanes with
          held := threePlanes.held.set 2 true, scan := { threePlanes.scan with format := .indexed }
          planes := threePlanes.planes.set 9
            { threePlanes.planes[(9 : Plane)] with source := .streamB, palette := some 2 }
          owners := threePlanes.owners.set 9 (some 0) }
       snap.held[(2 : Plane)] = true ∧ snap.planes[(9 : Plane)].source = .streamB ∧ snap.scan.format = .indexed
         ∧ snap.planes[(9 : Plane)].palette = some 2 ∧ snap.owners[(9 : Plane)] = some 0) := by decide

theorem witness_OrderEditsKeepThePlaneInItsBand :
    (let w := bands [0, 1, 2, 4, 5, 6, 7, 8, 9, 10, 11, 12, 13, 15, 3, 14]
     (w.live.order.erase 7 = [0, 1, 2, 4, 5, 6, 8, 9, 10, 11, 12, 13, 15] ++ [3, 14]
       ∧ (∀ q ∈ [0, 1, 2, 4, 5, 6, 8, 9, 10, 11, 12, 13, 15], w.live.isGuarded q = false)
       ∧ (∀ q ∈ [3, 14], w.live.isGuarded q = true) ∧ w.live.isGuarded 7 = false ∧ w.live.isGuarded 3 = true)
     ∧ (w.live.order.erase 5 = ([0, 1, 2, 4, 6, 7, 8, 9, 10, 11, 12, 13, 15, 3] ++ [14]) ++ []
       ∧ (14 : Plane) ∉ [0, 1, 2, 4, 6, 7, 8, 9, 10, 11, 12, 13, 15, 3]
       ∧ w.live.order.erase 5 = [0, 1, 2, 4, 6, 7, 8, 9, 10, 11, 12, 13, 15] ++ [3, 14])
     ∧ (w.live.order.erase 1 = [] ++ (0 :: [2, 4, 5, 6, 7, 8, 9, 10, 11, 12, 13, 15, 3, 14])
       ∧ w.live.order.erase 1 = [0, 2, 4, 5, 6, 7, 8, 9, 10, 11, 12, 13, 15] ++ [3, 14])) := by decide

theorem witness_GuardEditsMoveThePlaneBetweenTheBands :
    let w := bands [0, 1, 2, 4, 5, 6, 7, 8, 9, 10, 11, 12, 13, 15, 3, 14]
    (w.live.order.erase 7 = [0, 1, 2, 4, 5, 6, 8, 9, 10, 11, 12, 13, 15] ++ [3, 14] ∧ w.live.isGuarded 7 = false)
    ∧ (w.live.order.erase 3 = [0, 1, 2, 4, 5, 6, 7, 8, 9, 10, 11, 12, 13, 15] ++ [14] ∧ w.live.isGuarded 3 = true)
    ∧ w.live.order.Perm allPlanes := by decide

theorem witness_EditsOverwriteWhatTheyName :
    let w := bands allPlanes
    (240 + (List.replicate 16 Colour.black).length ≤ 256 ∧ Memory.wf w.live.palette = true)
    ∧ w.live.guards[(3 : Plane)] = some .fresh ∧ w.live.guards[(4 : Plane)] = none := by decide

theorem witness_ValidationTriesTheReasonsInOrder :
    (let edits : List Edit := [.order 5 .top, .order 9 .top]
     edits = [.order 5 .top] ++ .order 9 .top :: [] ∧ (Edit.order 9 .top).touched = some (.plane 9)
       ∧ owning.claimOf (.plane 5) = .held 1 ∧ owning.claimOf (.plane 9) = .held 0)
    ∧ (let e : PlaneEdit :=
         { plane := 5, enabled := none, rect := some ⟨9, 0, 8, 0⟩, source := none, fill := none, palette := some (some 3),
           mode := none }
       let w := workOf owning.live [.plane e]
       ¬ (w.live.planes[(5 : Plane)].rect.x0 ≤ w.live.planes[(5 : Plane)].rect.x1)
         ∧ w.live.planes[(5 : Plane)].enabled = true ∧ w.live.planes[(5 : Plane)].palette = some 3
         ∧ owning.planeOwner 5 = some 1 ∧ owning.bankOwner 3 = none)
    ∧ (let w := workOf owning.live [.guard 0 true, .guard 1 true, .guard 2 true, .guard 4 true]
       4 < w.live.guardCount ∧ w.guardSet = some 4)
    ∧ (workOf owning.live [.signature 5 none 1 .notify]).unguarded = some (1, 5) := by decide

theorem witness_StreamFaultsAreReportedOnce : faulted.nreset = true ∧ faulted.compose.reportDue = true := by decide

theorem witness_SignatureComparisonJudgesAndPosts :
    (comparing.nreset = true ∧ comparing.monitor.compareDue = true)
    ∧ exec .signatureCompare comparing = .next (after .signatureCompare comparing)
    ∧ comparing.live.guards[(7 : Plane)] = some mismatched ∧ comparing.live.guards[(5 : Plane)] = none
    ∧ (mismatched.latched = some 1 ∧ mismatched.changed = false ∧ comparing.monitor.newScan = false) :=
  ⟨by decide, rfl, by decide, by decide, by decide⟩

theorem witness_StageACompletesEveryLapse :
    ending.nreset = true
    ∧ ending.window = some { budget := 2816, remaining := 2816, field := 0, stage := .lapses, skipped := [] } := by decide

theorem witness_StageBCompletesEveryRevocation :
    let s := inWindow .revocations
    s.nreset = true
    ∧ s.window = some { budget := 2816, remaining := 2816, field := 0, stage := .revocations, skipped := [] } := by decide

/-- The window of `inWindow`. -/
def scanning (budget remaining : Nat) (skipped : List Port) : Window :=
  { budget, remaining, field := 0, stage := .scan, skipped }

theorem witness_WindowScanDecidesByItsTable :
    ((inWindow .scan).nreset = true ∧ (inWindow .scan).window = some (scanning 2816 2816 [])
      ∧ ∀ x ∈ (inWindow .scan).queue, x.state = .queued)
    ∧ (let s := { inWindow .scan with queue := [] }
       s.window = some (scanning 2816 2816 []) ∧ (∀ x ∈ s.queue, x.scanned = true))
    ∧ (let b := { batchOf 3 [.order 5 .bottom] none false with member := true }
       (inWindow .scan).queue = [] ++ b :: [] ∧ b.scanned = false ∧ b.member = true
         ∧ b.port ∉ (scanning 2816 2816 []).skipped ∧ b.port ∈ (scanning 2816 2816 [1]).skipped ∧ b.target = none
         ∧ (scanning 1 1 []).budget < b.cost ∧ (scanning 2816 1 []).remaining < b.cost
         ∧ b.cost ≤ (scanning 2816 2816 []).remaining)
    ∧ (let b := { batchOf 3 [.order 5 .bottom] (some 9) false with member := true }
       (b.target.isNone || b.reached) = false)
    ∧ (batchOf 3 [.order 5 .bottom] none false).member = false := by decide

theorem witness_BatchValidationAppliesOrRejects :
    (applying.nreset = true ∧ applying.window = some (scanning 2816 2816 []))
    ∧ (let b := { batchOf 3 [.order 5 .bottom] none false with member := true, scanned := true, state := .applying }
       applying.queue = [] ++ b :: [] ∧ b.state = .applying
         ∧ validate applying b.port b.edits (workOf applying.live b.edits) = .pass
         ∧ validate applying b.port [.order 9 .top] (workOf applying.live [.order 9 .top])
           = .fail .notOwner 1 (some (.plane 9))) := by decide

theorem witness_CountdownEndsTheWindow :
    (runningOut.nreset = true ∧ (∀ x ∈ runningOut.queue, x.state = .queued)
      ∧ runningOut.window.map (·.stage) = some .countdown)
    ∧ (let s := { inWindow .scan with queue := [batchOf 3 [] none false] }
       s.window = some (scanning 2816 2816 []) ∧ ∀ x ∈ s.queue, x.scanned = true ∨ x.member = false) := by decide

theorem witness_LeasesTickAndExpire :
    (expired.nreset = true ∧ (expired.session 1).state = .attached ∧ (expired.session 1).interval ≠ 0
      ∧ (expired.session 1).remaining.toNat ≤ 1 ∧ (expired.cpi 1).state ≠ .executing)
    ∧ (joined.session 2).state ≠ .attached ∧ (joined.session 0).interval = 0
    ∧ 1 < (joined.session 1).remaining.toNat
    ∧ ((executing 0x19).cpi 1).state = .executing := by decide

/-! ### The laws hold in a state with claims, a guard, staged edits and a batch -/

theorem witness_PictureAndRangesAreKept :
    PictureLaw staging ∧ RangeLaw staging ∧ OutputLaw staging ∧ step staging = .next staging.tick := by
  refine ⟨⟨by decide, by decide, by decide, by decide, ?_, by decide⟩, ⟨?_, ?_, by unfold ScanRecord.inRange; decide, by unfold ScanRecord.inRange; decide⟩, ⟨by decide, by decide, by decide⟩, rfl⟩
  · intro p r h
    have hn : ∀ p : Plane, p ≠ 7 → staging.live.guards[p] = none := by decide
    by_cases hp : p = 7
    · subst hp
      cases h
      decide
    · rw [hn p hp] at h
      cases h
  · intro p e he
    have h1 : (staging.staged 1).list = [.order 7 .top, .order 5 (.above 7)] := by decide
    have hn : ∀ p : Port, p ≠ 1 → (staging.staged p).list = [] := by decide
    by_cases hp : p = 1
    · rw [hp, h1] at he
      simp only [List.mem_cons, List.not_mem_nil, or_false] at he
      rcases he with rfl | rfl
      · trivial
      · exact (by decide : (7 : Plane) ≠ 5)
    · rw [hn p hp] at he
      cases he
  · intro b hb e he
    have hq : staging.queue = [batchOf 3 [.order 5 .bottom] none false] := by decide
    rw [hq, List.mem_singleton] at hb
    subst hb
    rw [batchOf, List.mem_singleton] at he
    subst he
    trivial

theorem witness_OwnershipIsKept : OwnershipLaw staging ∧ step staging = .next staging.tick :=
  ⟨⟨by decide, by decide, by decide, by decide⟩, rfl⟩

theorem witness_CapacitiesAreKept : CapacityLaw staging ∧ step staging = .next staging.tick :=
  ⟨⟨by decide, by decide, by decide, by decide, by decide, by decide, by decide⟩, rfl⟩

theorem witness_PortStatesAndCommandsInFlightAreKept :
    PortLaw staging ∧ InFlightLaw staging ∧ step staging = .next staging.tick :=
  ⟨fun p => portLaw_reset _ (by revert p; decide), by unfold InFlightLaw; decide, rfl⟩

theorem witness_WindowAndReferenceLawsAreKept :
    RangeLaw staging ∧ WindowLaw staging ∧ ReferenceLaw staging ∧ step staging = .next staging.tick :=
  ⟨witness_PictureAndRangesAreKept.2.1,
    ⟨by decide, by decide, by decide, by decide, by decide, by decide, by decide, by decide, by decide, by decide⟩,
    ⟨by decide, by decide⟩, rfl⟩

theorem witness_SessionLawsAreKept : WindowLaw staging ∧ SessionLaw staging ∧ step staging = .next staging.tick := by
  refine ⟨witness_WindowAndReferenceLawsAreKept.2.1, ⟨?_, by decide, by decide, by decide, by decide, by decide⟩, rfl⟩
  intro p
  constructor <;> revert p <;> decide

theorem witness_TheQueueKeepsItsOrder : step staging = .next staging.tick := rfl

end Sys2Proof.Tests
end

section
/-! The modes of a plane (R13, R14), where an ORDER edit puts its plane (R7, R8), and the report of stream faults (R20). -/

namespace Sys2Proof.Machine

/-! ### Modes (R13, R14) -/

/-- A mean of two bytes with weights that add up to 16 is a byte, so the word of a blended channel loses nothing. -/
theorem blendChannel_toNat {alpha : Nat} (h : alpha ≤ 16) (plane result : Byte) :
    (blendChannel alpha plane result).toNat = (alpha * plane.toNat + (16 - alpha) * result.toNat + 8) / 16 := by
  have hplane : alpha * plane.toNat ≤ alpha * 255 := Nat.mul_le_mul_left _ (by omega)
  have hresult : (16 - alpha) * result.toNat ≤ (16 - alpha) * 255 := Nat.mul_le_mul_left _ (by omega)
  rw [blendChannel, BitVec.toNat_ofNat, Nat.mod_eq_of_lt (by omega)]

theorem blendChannel_sixteen (plane result : Byte) : blendChannel 16 plane result = plane := by
  apply BitVec.eq_of_toNat_eq
  rw [blendChannel_toNat (Nat.le_refl 16)]
  omega

theorem blendChannel_zero (plane result : Byte) : blendChannel 0 plane result = result := by
  apply BitVec.eq_of_toNat_eq
  rw [blendChannel_toNat (Nat.zero_le _)]
  omega

theorem colour_eq_iff {c d : Colour} : c = d ↔ c.r = d.r ∧ c.g = d.g ∧ c.b = d.b := by
  cases c
  cases d
  simp

theorem combine_keyed_match {key plane : Colour} (h : plane = key) (result : Colour) :
    combine (.keyed key) plane result = result := if_pos h

theorem combine_keyed_differ {key plane : Colour} (h : plane ≠ key) (result : Colour) :
    combine (.keyed key) plane result = plane := if_neg h

theorem combine_blended (alpha : Fin 17) (plane result : Colour) :
    combine (.blended alpha) plane result =
      ⟨blendChannel alpha.val plane.r result.r, blendChannel alpha.val plane.g result.g,
        blendChannel alpha.val plane.b result.b⟩ := rfl

theorem combine_blended_sixteen {alpha : Fin 17} (h : alpha.val = 16) (plane result : Colour) :
    combine (.blended alpha) plane result = plane := by
  simp only [combine_blended, h, blendChannel_sixteen]

theorem combine_blended_zero {alpha : Fin 17} (h : alpha.val = 0) (plane result : Colour) :
    combine (.blended alpha) plane result = result := by
  simp only [combine_blended, h, blendChannel_zero]

/-- Settles O40: a Blended channel is `blendChannel`, whose value always fits the byte. -/
theorem modesCombineThePlaneColour : Obligations.ModesCombineThePlaneColour := by
  unfold Obligations.ModesCombineThePlaneColour
  refine ⟨fun _ _ => rfl, fun key plane result => ⟨fun hkey => ?_, fun hkey => ?_⟩, fun alpha plane result => ?_,
    fun plane result => ⟨?_, ?_⟩⟩
  · exact combine_keyed_match (colour_eq_iff.2 hkey) result
  · refine combine_keyed_differ (fun h => ?_) result
    obtain ⟨hr, hg, hb⟩ := colour_eq_iff.1 h
    simp [hr, hg, hb] at hkey
  · have hchannel := blendChannel_toNat (Nat.le_of_lt_succ alpha.isLt)
    rw [combine_blended]
    exact ⟨hchannel _ _, hchannel _ _, hchannel _ _⟩
  · exact combine_blended_sixteen rfl plane result
  · exact combine_blended_zero rfl plane result

/-! ### ORDER edits (R7, R8) -/

/-- An ORDER edit puts the placed list into the working copy, marks it when the place was clamped, and touches nothing else. -/
theorem Work.edit_order {w : Work} {p : Plane} {form : OrderForm} {order : List Plane} {clamp : Bool}
    (h : orderPlaced w.live.isGuarded p form w.live.order = (order, clamp)) (index : Nat) :
    w.edit index (.order p form) =
      { w with live := { w.live with order }, clamped := w.clamped || clamp } := by
  simp only [Work.edit, h]

/-- TOP: the border for an unguarded plane, the end of the list for a guarded one. -/
theorem orderPlaced_top {guarded : Plane → Bool} {p : Plane} {order low high : List Plane}
    (hrest : order.erase p = low ++ high) (hl : ∀ q ∈ low, guarded q = false) (hh : ∀ q ∈ high, guarded q = true) :
    orderPlaced guarded p .top order = (if guarded p then low ++ high ++ [p] else low ++ p :: high, false) := by
  simp only [orderPlaced, hrest, placeAtBorder_bands p hl hh]

/-- BOTTOM: the border for a guarded plane, the front of the list for an unguarded one. -/
theorem orderPlaced_bottom {guarded : Plane → Bool} {p : Plane} {order low high : List Plane}
    (hrest : order.erase p = low ++ high) (hl : ∀ q ∈ low, guarded q = false) (hh : ∀ q ∈ high, guarded q = true) :
    orderPlaced guarded p .bottom order = (if guarded p then low ++ p :: high else p :: (low ++ high), false) := by
  simp only [orderPlaced, hrest, placeAtBorder_bands p hl hh]

/-- The place found by searching for q is the place of its first occurrence. -/
theorem idxOf_append_cons {q : Plane} {below : List Plane} (h : q ∉ below) (above : List Plane) :
    (below ++ q :: above).idxOf q = below.length := by
  rw [List.idxOf_append, if_neg h, List.idxOf_cons_self, Nat.zero_add]

/-- ABOVE q cuts the other planes after q. -/
theorem orderPlaced_above {p q : Plane} {order below above : List Plane}
    (hrest : order.erase p = below ++ [q] ++ above) (hq : q ∉ below) (guarded : Plane → Bool) :
    orderPlaced guarded p (.above q) order = placeOrClamp guarded p (below ++ [q]) above := by
  have hidx : (below ++ [q] ++ above).idxOf q + 1 = (below ++ [q]).length := by
    simp [idxOf_append_cons hq above]
  simp only [orderPlaced, hrest, hidx, List.take_left, List.drop_left]

/-- BELOW q cuts the other planes before q. -/
theorem orderPlaced_below {p q : Plane} {order below above : List Plane}
    (hrest : order.erase p = below ++ q :: above) (hq : q ∉ below) (guarded : Plane → Bool) :
    orderPlaced guarded p (.below q) order = placeOrClamp guarded p below (q :: above) := by
  simp only [orderPlaced, hrest, idxOf_append_cons hq above, List.take_left, List.drop_left]

/-- Plane p between the planes lower and upper stands above a guarded plane that it must stay below, or below an
unguarded one that it must stay above. -/
def BreaksBands (guarded : Plane → Bool) (p : Plane) (lower upper : List Plane) : Prop :=
  (guarded p = false ∧ ∃ x ∈ lower, guarded x = true) ∨ (guarded p = true ∧ ∃ x ∈ upper, guarded x = false)

theorem breaksBands_iff {guarded : Plane → Bool} {p : Plane} {lower upper : List Plane} :
    BreaksBands guarded p lower upper ↔
      (if guarded p then upper.any fun q => !guarded q else lower.any guarded) = true := by
  unfold BreaksBands
  cases hp : guarded p <;> simp

theorem placeOrClamp_kept {guarded : Plane → Bool} {p : Plane} {lower upper : List Plane}
    (h : ¬ BreaksBands guarded p lower upper) : placeOrClamp guarded p lower upper = (lower ++ p :: upper, false) :=
  if_neg (mt breaksBands_iff.2 h)

theorem placeOrClamp_clamped {guarded : Plane → Bool} {p : Plane} {lower upper low high : List Plane}
    (h : BreaksBands guarded p lower upper) (hrest : lower ++ upper = low ++ high)
    (hl : ∀ q ∈ low, guarded q = false) (hh : ∀ q ∈ high, guarded q = true) :
    placeOrClamp guarded p lower upper = (low ++ p :: high, true) := by
  rw [placeOrClamp, if_pos (breaksBands_iff.1 h), hrest, placeAtBorder_bands p hl hh]

/-- An ORDER edit whose tentative place lies between lower and upper takes that place, or clamps to the border. -/
theorem Work.edit_order_tentative {w : Work} {p : Plane} {form : OrderForm} {lower upper low high : List Plane}
    (hplace : orderPlaced w.live.isGuarded p form w.live.order = placeOrClamp w.live.isGuarded p lower upper)
    (hrest : lower ++ upper = low ++ high) (hl : ∀ q ∈ low, w.live.isGuarded q = false)
    (hh : ∀ q ∈ high, w.live.isGuarded q = true) (index : Nat) :
    (¬ BreaksBands w.live.isGuarded p lower upper →
      w.edit index (.order p form) = { w with live := { w.live with order := lower ++ p :: upper } })
    ∧ (BreaksBands w.live.isGuarded p lower upper →
      w.edit index (.order p form) = { w with live := { w.live with order := low ++ p :: high }, clamped := true }) := by
  constructor <;> intro hbreaks
  · rw [Work.edit_order (hplace.trans (placeOrClamp_kept hbreaks)), Bool.or_false]
  · rw [Work.edit_order (hplace.trans (placeOrClamp_clamped hbreaks hrest hl hh)), Bool.or_true]

/-- Settles O42: each form is placed by its own lemma; ABOVE and BELOW share the clamping of a tentative place. -/
theorem orderEditsKeepThePlaneInItsBand : Obligations.OrderEditsKeepThePlaneInItsBand := by
  unfold Obligations.OrderEditsKeepThePlaneInItsBand
  constructor
  · intro w index p low high guarded hrest hl hh
    have htop := Work.edit_order (orderPlaced_top hrest hl hh) index
    have hbottom := Work.edit_order (orderPlaced_bottom hrest hl hh) index
    refine ⟨fun hp => ?_, fun hp => ?_, ?_⟩
    · simp [htop, hbottom, show w.live.isGuarded p = false from hp]
    · simp [htop, hbottom, show w.live.isGuarded p = true from hp]
    · rintro form (rfl | rfl)
      · simp [htop]
      · simp [hbottom]
  · rintro w index p q below above low high form guarded (⟨rfl, hq, hnot, hrest⟩ | ⟨rfl, hq, hnot, hrest⟩) hl hh
    · simpa [BreaksBands] using
        Work.edit_order_tentative (orderPlaced_above hq hnot _) (hq.symm.trans hrest) hl hh index
    · simpa [BreaksBands] using
        Work.edit_order_tentative (orderPlaced_below hq hnot _) (hq.symm.trans hrest) hl hh index

/-! ### The report of stream faults (R20) -/

theorem State.SameButQueues.session {s t : State} (h : s.SameButQueues t) (p : Port) : t.session p = s.session p := by
  obtain ⟨v, rfl⟩ := h
  rfl

theorem State.SameButQueues.timing {s t : State} (h : s.SameButQueues t) : t.timing = s.timing := by
  obtain ⟨v, rfl⟩ := h
  rfl

/-- The queue after a post that only an Attached port takes. -/
theorem State.postAttached_noticeQueue (s : State) (n : Notice) (p k : Port) :
    (s.postAttached n p).noticeQueue k =
      if k = p ∧ (s.session k).state = .attached then (s.noticeQueue k).take n else s.noticeQueue k := by
  unfold State.postAttached State.isAttached
  by_cases hk : k = p
  · subst hk
    by_cases ha : (s.session k).state = .attached
    · simp [ha, State.post_noticeQueue]
    · simp [ha]
  · split <;> simp [hk, State.post_noticeQueue]

/-- The notices that one port's record in a fault set gives rise to. -/
def recordFaults (field : Byte) (stream : Stream) (record : Option Plane) : List Notice :=
  (record.map (streamFault field stream)).toList

theorem State.reportStream_nil (s : State) (stream : Stream) (set : Vector (Option Plane) 3) :
    s.reportStream stream set [] = s := rfl

/-- The report goes port by port. -/
theorem State.reportStream_cons (s : State) (stream : Stream) (set : Vector (Option Plane) 3) (p : Port)
    (ports : List Port) :
    s.reportStream stream set (p :: ports) = (s.reportStream stream set [p]).reportStream stream set ports := rfl

theorem State.reportStream_of_none {s : State} {set : Vector (Option Plane) 3} {p : Port} (h : set[p] = none)
    (stream : Stream) : s.reportStream stream set [p] = s := by
  simp only [State.reportStream, List.foldl_cons, List.foldl_nil, h]

theorem State.reportStream_of_some {s : State} {set : Vector (Option Plane) 3} {p : Port} {q : Plane}
    (h : set[p] = some q) (stream : Stream) :
    s.reportStream stream set [p] = s.postAttached (streamFault s.timing.field stream q) p := by
  simp only [State.reportStream, List.foldl_cons, List.foldl_nil, h]

theorem State.sameButQueues_reportStream (s : State) (stream : Stream) (set : Vector (Option Plane) 3)
    (ports : List Port) : s.SameButQueues (s.reportStream stream set ports) := by
  refine State.sameButQueues_foldl _ (fun t p => ?_) ports s
  split
  · exact t.sameButQueues_postAttached _ p
  · exact .refl t

/-- The report to one port: its notices to its own queue if it is Attached. -/
theorem State.reportStream_singleton_noticeQueue (s : State) (stream : Stream) (set : Vector (Option Plane) 3)
    (p k : Port) :
    (s.reportStream stream set [p]).noticeQueue k =
      if k = p ∧ (s.session k).state = .attached then
        (s.noticeQueue k).takes (recordFaults s.timing.field stream set[k])
      else s.noticeQueue k := by
  cases h : set[p] with
  | none =>
    rw [State.reportStream_of_none h]
    by_cases hk : k = p
    · subst hk
      simp [recordFaults, NoticeQueue.takes, h]
    · simp [hk]
  | some q =>
    rw [State.reportStream_of_some h, State.postAttached_noticeQueue]
    by_cases hk : k = p
    · subst hk
      simp [recordFaults, NoticeQueue.takes, h]
    · simp [hk]

/-- The report to a list that names each port once: each port gets its own notices, once. -/
theorem State.reportStream_noticeQueue (s : State) (stream : Stream) (set : Vector (Option Plane) 3) {ports : List Port}
    (hports : ports.Nodup) (k : Port) :
    (s.reportStream stream set ports).noticeQueue k =
      if k ∈ ports ∧ (s.session k).state = .attached then
        (s.noticeQueue k).takes (recordFaults s.timing.field stream set[k])
      else s.noticeQueue k := by
  induction ports generalizing s with
  | nil => simp [State.reportStream_nil]
  | cons p rest ih =>
    obtain ⟨hp, hrest⟩ := List.nodup_cons.1 hports
    have hsame := s.sameButQueues_reportStream stream set [p]
    rw [State.reportStream_cons, ih _ hrest, hsame.session, hsame.timing, State.reportStream_singleton_noticeQueue]
    by_cases hk : k = p
    · subst hk
      simp [hp]
    · simp [hk]

/-- The report to all ports. -/
theorem State.reportStream_allPorts_noticeQueue (s : State) (stream : Stream) (set : Vector (Option Plane) 3) (k : Port) :
    (s.reportStream stream set allPorts).noticeQueue k =
      if (s.session k).state = .attached then (s.noticeQueue k).takes (recordFaults s.timing.field stream set[k])
      else s.noticeQueue k := by
  have hall : ∀ p : Port, p ∈ allPorts := by decide
  rw [State.reportStream_noticeQueue s stream set (by decide) k]
  simp [hall k]

theorem NoticeQueue.takes_append (q : NoticeQueue) (first second : List Notice) :
    q.takes (first ++ second) = (q.takes first).takes second := List.foldl_append

/-- The state after the reports of Stream A and then Stream B, each to all ports. -/
def State.faultsReported (s : State) : State :=
  (s.reportStream .a s.compose.faultA allPorts).reportStream .b s.compose.faultB allPorts

theorem exec_streamFaultReport {s : State} (hn : s.nreset = true) (hd : s.compose.reportDue = true) :
    exec .streamFaultReport s =
      .next { s.faultsReported with compose := { s.faultsReported.compose with reportDue := false } } := by
  have hdef : exec .streamFaultReport s = execStreamFaultReport s := rfl
  simp only [hdef, execStreamFaultReport, hn, hd, Bool.and_self, if_true, State.faultsReported]

theorem State.sameButQueues_faultsReported (s : State) : s.SameButQueues s.faultsReported :=
  (s.sameButQueues_reportStream .a s.compose.faultA allPorts).trans (State.sameButQueues_reportStream _ .b _ allPorts)

/-- An Attached port takes the notice of its Stream A record, then that of its Stream B record. -/
theorem State.faultsReported_noticeQueue (s : State) (k : Port) :
    s.faultsReported.noticeQueue k =
      if (s.session k).state = .attached then
        (s.noticeQueue k).takes
          (recordFaults s.timing.field .a s.compose.faultA[k] ++ recordFaults s.timing.field .b s.compose.faultB[k])
      else s.noticeQueue k := by
  have hsame := s.sameButQueues_reportStream .a s.compose.faultA allPorts
  rw [State.faultsReported, State.reportStream_allPorts_noticeQueue, hsame.session, hsame.timing,
    State.reportStream_allPorts_noticeQueue]
  split
  · rw [NoticeQueue.takes_append]
  · rfl

/-- Settles O46: the reports touch the Notice Queues alone, and each port's queue takes its own records' notices. -/
theorem streamFaultsAreReportedOnce : Obligations.StreamFaultsAreReportedOnce := by
  unfold Obligations.StreamFaultsAreReportedOnce
  intro s hn hd fault
  have hfault : ∀ (stream : Stream) (record : Option Plane),
      fault stream.code record = recordFaults s.timing.field stream record := by
    intro stream record
    cases record <;> rfl
  refine ⟨_, exec_streamFaultReport hn hd, fun p => ?_, ?_⟩
  · exact (s.faultsReported_noticeQueue p).trans (by rw [← hfault .a, ← hfault .b]; rfl)
  · obtain ⟨v, hv⟩ := s.sameButQueues_faultsReported
    rw [hv]

end Sys2Proof.Machine
end

section
/-! DISCARD and SEAL (R65, R67 to R72): the answer of a command that leaves the sessions alone, the bytes of SEAL's
arguments, and the checks of Table 4.3 in their order. -/

namespace Sys2Proof.Machine

/-! ### A session command whose action leaves the port's session as it is -/

/-- What becomes of an Attached port when the owning block answers at once, or sends the command into flight. -/
def State.afterReply (p : Port) (code : Byte) : Reply × State → State
  | (.done k out, t) => t.withReply p k code out
  | (.inFlight, t) => t.withLaunch p code

@[simp] theorem State.afterReply_done (p : Port) (code : Byte) (k : Completion) (out : List Byte) (t : State) :
    State.afterReply p code (.done k out, t) = t.withReply p k code out := rfl

@[simp] theorem State.afterReply_inFlight (p : Port) (code : Byte) (t : State) :
    State.afterReply p code (.inFlight, t) = t.withLaunch p code := rfl

/-- In session, a command that is open to every role ends as its action says. -/
theorem exec_row_afterReply {s : State} {p : Port} {c : Command} {session : Byte} {payload : List Byte} (hr : s.Ready p)
    (hi : s.InSession p session) (hl : payload.length ≤ 61) (hstatus : c ≠ .status) (hattach : c ≠ .attach)
    (hsup : c.supervisorOnly = false) (hkeeps : (ownerAct c p session payload s).2.session p = s.session p) :
    exec (c.row p session payload) s = .next (State.afterReply p c.code (ownerAct c p session payload s)) := by
  rw [exec_row_run hr hl hstatus (sessionRefusal_inSession hi hattach) (by simp [hsup])]
  obtain ⟨hattached, -⟩ := hi
  generalize ownerAct c p session payload s = r at hkeeps
  obtain ⟨reply, t⟩ := r
  cases reply with
  | done k out => exact congrArg _ (State.withReplyInAnyState_attached (by rw [hkeeps, hattached]) k c.code out)
  | inFlight => rfl

/-- The refusal of a session command by the state of the port (Table 6.2): an Attached port has another session number. -/
def SessionState.refusal : SessionState → Completion
  | .detached => .notAttached
  | .lapsing => .lapsing
  | .attached => .staleSession

/-- Out of session, every command but ATTACH, STATUS and READ_NOTICES is refused by the state of the port. -/
theorem sessionRefusal_notInSession {s : State} {p : Port} {session : Byte} {c : Command} (h : ¬ s.InSession p session)
    (hattach : c ≠ .attach) (hstatus : c ≠ .status) (hread : c ≠ .readNotices) :
    sessionRefusal c (s.session p) session = some (s.session p).state.refusal := by
  have hnumber : (s.session p).state = .attached → session ≠ (s.session p).number := fun hs hn => h ⟨hs, hn⟩
  have hcheck : sessionRefusal c (s.session p) session =
      match (s.session p).state with
      | .detached => some .notAttached
      | .lapsing => some .lapsing
      | .attached => if session = (s.session p).number then none else some .staleSession := by
    cases c with
    | attach => contradiction
    | status => contradiction
    | readNotices => contradiction
    | _ => rfl
  rw [hcheck]
  cases hs : (s.session p).state with
  | detached => rfl
  | lapsing => rfl
  | attached => exact if_neg (hnumber hs)

/-! ### DISCARD -/

theorem discardAct_nil (p : Port) (s : State) :
    discardAct p [] s = (.done .ok [byteOf (s.staged p).list.length], s.setStaged p .empty) := rfl

theorem discardAct_of_ne_nil {payload : List Byte} (h : payload ≠ []) (p : Port) (s : State) :
    discardAct p payload s = (.done .badArg [], s) := by
  cases payload with
  | nil => exact absurd rfl h
  | cons => rfl

theorem discardAct_session (p : Port) (payload : List Byte) (s : State) (k : Port) :
    (discardAct p payload s).2.session k = s.session k := by
  cases payload <;> rfl

theorem exec_discard {s : State} {p : Port} {session : Byte} {payload : List Byte} (hr : s.Ready p)
    (hi : s.InSession p session) (hl : payload.length ≤ 61) :
    exec (.discard p session payload) s = .next (State.afterReply p 0x18 (discardAct p payload s)) :=
  exec_row_afterReply (c := .discard) hr hi hl (by decide) (by decide) rfl (discardAct_session p payload s p)

/-- The records of an emptied Staged List are no longer in use; those of the batches still are. -/
theorem State.recordsInUse_setStaged_empty (s : State) (p : Port) :
    (s.setStaged p .empty).recordsInUse p + (s.staged p).list.length = s.recordsInUse p := by
  simp only [State.recordsInUse, State.setStaged_staged, if_true, State.setStaged_queue, Staging.empty, List.length_nil]
  omega

/-- Settles O21: in session by the action of DISCARD, out of session by the session checks of Table 6.2. -/
theorem discardEmptiesTheStagedList : Obligations.DiscardEmptiesTheStagedList := by
  unfold Obligations.DiscardEmptiesTheStagedList
  intro s p session hr
  refine ⟨fun hi => ⟨?_, s.recordsInUse_setStaged_empty p, fun payload hne hl => ?_⟩, fun hout => ?_⟩
  · rw [exec_discard hr hi (by simp), discardAct_nil]
    rfl
  · rw [exec_discard hr hi hl, discardAct_of_ne_nil hne, State.afterReply_done]
  · exact exec_row_refused (c := .discard) hr (by simp)
      (sessionRefusal_notInSession hout (by decide) (by decide) (by decide))

/-! ### The arguments of SEAL (R67) -/

/-- A 16-bit value is read back from the two bytes that carry it. -/
theorem ofNat_nat16_byteOf (v : BitVec 16) : BitVec.ofNat 16 (nat16 (byteOf (v.toNat / 256)) (byteOf v.toNat)) = v := by
  apply BitVec.eq_of_toNat_eq
  simp only [nat16, byteOf, BitVec.toNat_ofNat]
  omega

/-- Two bytes are those of the 16-bit value read from them. -/
theorem be16_ofNat_nat16 (hi lo : Byte) : be16 (BitVec.ofNat 16 (nat16 hi lo)).toNat = [hi, lo] := by
  have hhi := hi.isLt
  have hlo := lo.isLt
  have hv : (BitVec.ofNat 16 (nat16 hi lo)).toNat = hi.toNat * 256 + lo.toNat := by
    rw [BitVec.toNat_ofNat, nat16]
    omega
  rw [hv]
  simp only [be16, byteOf, List.cons.injEq, and_true, ← BitVec.toNat_inj, BitVec.toNat_ofNat]
  omega

theorem flagOf_eq_some {n : Byte} {b : Bool} : flagOf n = some b ↔ n = flagByte b := by
  constructor
  · intro h
    unfold flagOf at h
    split at h
    · cases h
      assumption
    · split at h
      · cases h
        assumption
      · cases h
  · rintro rfl
    exact flagOf_flagByte b

/-- The two target bytes of SEAL; the field byte of NEXT is ignored. -/
def targetArgBytes (ignored : Byte) : Option Byte → List Byte
  | none => [0, ignored]
  | some n => [1, n]

/-- Form and field decode to a target exactly when they are its bytes, whatever stands in the ignored one. -/
theorem targetOf_eq_some {form field : Byte} {target : Option Byte} :
    targetOf form field = some target ↔ ∃ ignored, [form, field] = targetArgBytes ignored target := by
  unfold targetOf
  by_cases h0 : form = 0
  · rw [if_pos h0]
    cases target <;> simp [h0, targetArgBytes]
  · rw [if_neg h0]
    by_cases h1 : form = 1
    · rw [if_pos h1]
      cases target <;> simp [h1, targetArgBytes]
    · rw [if_neg h1]
      cases target with
      | none => simpa [targetArgBytes] using h0
      | some n => simpa [targetArgBytes] using fun h => absurd h h1

theorem sealPayload_eq (count : Byte) (check : BitVec 16) (target : Option Byte) (ignored : Byte) (wait : Bool) :
    sealPayload count check target ignored wait
      = [count] ++ be16 check.toNat ++ targetArgBytes ignored target ++ [flagByte wait] := by
  cases target <;> rfl

theorem length_sealPayload (count : Byte) (check : BitVec 16) (target : Option Byte) (ignored : Byte) (wait : Bool) :
    (sealPayload count check target ignored wait).length = 6 := by
  cases target <;> rfl

theorem sealArgsOf_sealPayload (count : Byte) (check : BitVec 16) (target : Option Byte) (ignored : Byte) (wait : Bool) :
    sealArgsOf (sealPayload count check target ignored wait) = some { count := count.toNat, check, target, wait } := by
  cases target <;>
    simp [sealPayload, be16, sealArgsOf, targetOf, flagOf_flagByte, ofNat_nat16_byteOf]

/-- What decodes was written by Table 11.1. -/
theorem exists_sealPayload_of_sealArgsOf {payload : List Byte} {a : SealArgs} (h : sealArgsOf payload = some a) :
    ∃ count check target ignored wait, payload = sealPayload count check target ignored wait := by
  unfold sealArgsOf at h
  split at h
  case h_1 count hi lo form field waitByte =>
    simp only [Option.bind_eq_bind, Option.bind_eq_some_iff] at h
    obtain ⟨target, htarget, wait, hwait, -⟩ := h
    obtain ⟨ignored, hbytes⟩ := targetOf_eq_some.1 htarget
    refine ⟨count, BitVec.ofNat 16 (nat16 hi lo), target, ignored, wait, ?_⟩
    rw [sealPayload_eq, be16_ofNat_nat16, ← hbytes, ← flagOf_eq_some.1 hwait]
    rfl
  case h_2 => cases h

theorem sealArgsOf_eq_none {payload : List Byte}
    (h : ∀ count check target ignored wait, payload ≠ sealPayload count check target ignored wait) :
    sealArgsOf payload = none := by
  cases ha : sealArgsOf payload with
  | none => rfl
  | some a =>
    obtain ⟨count, check, target, ignored, wait, he⟩ := exists_sealPayload_of_sealArgsOf ha
    exact absurd he (h count check target ignored wait)

/-- R70: only a target that is named can lie too far ahead. -/
theorem targetTooFar_eq_any (field : Byte) (target : Option Byte) :
    targetTooFar field target = target.any fun n => decide (120 < (n - field).toNat) := by
  cases target <;> rfl

/-! ### SEAL -/

theorem sealAct_of_undecoded {payload : List Byte} (h : sealArgsOf payload = none) (p : Port) (s : State) :
    sealAct p payload s = (.done .badArg [], s) := by
  unfold sealAct
  rw [h]

/-- The rows of Table 4.3 in their order; the last two are an accepted SEAL, with and without wait. -/
theorem sealAct_of_decoded {payload : List Byte} {a : SealArgs} (h : sealArgsOf payload = some a) (p : Port) (s : State) :
    sealAct p payload s =
      if (s.staged p).list = [] then (.done .nothingStaged [], s)
      else if a.count ≠ (s.staged p).list.length then
        (.done .countMismatch (byteOf (s.staged p).list.length :: be16 (s.staged p).check.toNat), s.setStaged p .empty)
      else if a.check ≠ (s.staged p).check then
        (.done .badCheck (byteOf (s.staged p).list.length :: be16 (s.staged p).check.toNat), s.setStaged p .empty)
      else if s.live.scan.budget < editsCost (s.staged p).list then
        (.done .tooLarge (be16 (editsCost (s.staged p).list) ++ be16 s.live.scan.budget), s.setStaged p .empty)
      else if targetTooFar s.timing.field a.target then (.done .badTarget [s.timing.field], s)
      else if 8 ≤ s.queue.length ∨ 4 ≤ s.portBatches p then
        (.done .queueFull [byteOf s.queue.length, byteOf (s.portBatches p)], s)
      else if a.wait then (.inFlight, s.sealed p (sealedBatch p a s))
      else (.done .ok (sealedBatch p a s).acceptance, s.sealed p (sealedBatch p a s)) := by
  unfold sealAct
  rw [h]
  simp only [List.length_eq_zero_iff, Config.queueSize, Config.queuePortCap]
  cases a.wait <;> rfl

theorem State.sealed_session (s : State) (p : Port) (b : Batch) (k : Port) : (s.sealed p b).session k = s.session k := rfl

/-- Whatever a SEAL answers, the list may be emptied and a batch made, and no session changes. -/
theorem sealAct_session (p : Port) (payload : List Byte) (s : State) (k : Port) :
    (sealAct p payload s).2.session k = s.session k := by
  cases h : sealArgsOf payload with
  | none => rw [sealAct_of_undecoded h]
  | some a =>
    rw [sealAct_of_decoded h]
    (repeat' split) <;> simp only [State.setStaged_session, State.sealed_session]

theorem exec_seal {s : State} {p : Port} {session : Byte} {payload : List Byte} (hr : s.Ready p)
    (hi : s.InSession p session) (hl : payload.length ≤ 61) :
    exec (.seal p session payload) s = .next (State.afterReply p 0x19 (sealAct p payload s)) :=
  exec_row_afterReply (c := .seal) hr hi hl (by decide) (by decide) rfl (sealAct_session p payload s p)

/-- Settles O22: arguments decode exactly when Table 11.1 writes them; then each row of Table 4.3 gives its answer. -/
theorem sealIsJudgedInTheOrderOfItsTable : Obligations.SealIsJudgedInTheOrderOfItsTable := by
  unfold Obligations.SealIsJudgedInTheOrderOfItsTable
  refine ⟨fun s p session payload hr hi hl hne => ?_, ?_⟩
  · rw [exec_seal hr hi hl, sealAct_of_undecoded (sealArgsOf_eq_none hne), State.afterReply_done]
  · intro s p session count check target ignored wait hr hi list budget emptied found number sealed
    have hdecodes := sealArgsOf_sealPayload count check target ignored wait
    have hlen := length_sealPayload count check target ignored wait
    refine ⟨?_, ?_⟩
    · rw [exec_seal hr hi (by omega), sealAct_of_decoded hdecodes, targetTooFar_eq_any]
      simp only [apply_ite (State.afterReply p 0x19), State.afterReply_done, State.afterReply_inFlight]
      rfl
    · cases target <;> cases wait <;> rfl

end Sys2Proof.Machine
end

section
/-! CLAIM ANY-PLANE (R119, R121) and REVOKE (R129, R130, Table 7.4). -/

namespace Sys2Proof.Machine

/-! ### Claim entries and the bytes that name them -/

/-- A claim entry is no part of a session. -/
@[simp] theorem State.setClaim_session (s : State) (r : Resource) (c : Claim) (p : Port) :
    (s.setClaim r c).session p = s.session p := by
  cases r <;> rfl

/-- The bytes of a resource are a kind and a number that name it. -/
theorem Resource.exists_bytes_eq (r : Resource) :
    ∃ kind number, r.bytes = [kind, number] ∧ resourceOf kind number = some r := by
  obtain ⟨kind, number, h⟩ : ∃ kind number, r.bytes = [kind, number] := by
    cases r <;> exact ⟨_, _, rfl⟩
  exact ⟨kind, number, h, resourceOf_eq_some.2 h.symm⟩

/-- Kind and number that are no resource's bytes name none. -/
theorem resourceOf_eq_none {kind number : Byte} (h : ∀ r : Resource, [kind, number] ≠ r.bytes) :
    resourceOf kind number = none :=
  Option.eq_none_iff_forall_ne_some.2 fun r hr => h r (resourceOf_eq_some.1 hr)

/-! ### REVOKE -/

theorem revokeAct_of_free {s : State} {r : Resource} (h : s.claimOf r = .free) :
    revokeAct r.bytes s = (.done .notHeld [], s) := by
  obtain ⟨kind, number, hb, hr⟩ := r.exists_bytes_eq
  simp only [hb, revokeAct, hr, h]

theorem revokeAct_of_held {s : State} {r : Resource} {q : Port} (h : s.claimOf r = .held q) :
    revokeAct r.bytes s = (.done .ok [byteOf q.val, 0], s.setClaim r (.revoking q)) := by
  obtain ⟨kind, number, hb, hr⟩ := r.exists_bytes_eq
  simp only [hb, revokeAct, hr, h, portByte, byteOf]

theorem revokeAct_of_revoking {s : State} {r : Resource} {q : Port} (h : s.claimOf r = .revoking q) :
    revokeAct r.bytes s = (.done .ok [byteOf q.val, 1], s) := by
  obtain ⟨kind, number, hb, hr⟩ := r.exists_bytes_eq
  simp only [hb, revokeAct, hr, h, portByte, byteOf]

theorem revokeAct_of_unnamed {payload : List Byte} (h : ∀ r : Resource, payload ≠ r.bytes) (s : State) :
    revokeAct payload s = (.done .badArg [], s) := by
  unfold revokeAct
  split
  · rw [resourceOf_eq_none h]
  · rfl

/-- A REVOKE that the supervisor sends in session is answered as its action says, the session being as it was. -/
theorem exec_revoke {s t : State} {p : Port} {session : Byte} {payload : List Byte} {k : Completion} {out : List Byte}
    (hr : s.Ready p) (hi : s.InSession p session) (hsup : s.supervisor = some p) (hl : payload.length ≤ 61)
    (hact : revokeAct payload s = (.done k out, t)) (ht : t.session p = s.session p) :
    exec (.revoke p session payload) s = .next (t.withReply p k 0x07 out) := by
  have hattached : (t.session p).state = .attached := ht ▸ hi.left
  exact exec_row_done (c := .revoke) hr hi hl (by decide) (by decide) (fun _ => hsup) hact hattached

theorem Resource.length_bytes (r : Resource) : r.bytes.length = 2 := by
  cases r <;> rfl

/-- Settles O18: one row of Table 7.4 for each claim entry, and BAD_ARG for bytes that name no resource. -/
theorem revokeMarksAClaim : Obligations.RevokeMarksAClaim := by
  unfold Obligations.RevokeMarksAClaim
  intro s p session r hr hi hsup
  have hl : r.bytes.length ≤ 61 := by
    rw [r.length_bytes]
    decide
  refine ⟨fun hfree => ?_, fun q hheld => ?_, fun q hrevoking => ?_, fun payload hlen hunnamed => ?_⟩
  · exact exec_revoke hr hi hsup hl (revokeAct_of_free hfree) rfl
  · exact exec_revoke hr hi hsup hl (revokeAct_of_held hheld) (s.setClaim_session r _ p)
  · exact exec_revoke hr hi hsup hl (revokeAct_of_revoking hrevoking) rfl
  · exact exec_revoke hr hi hsup hlen (revokeAct_of_unnamed hunnamed s) rfl

/-! ### CLAIM ANY-PLANE -/

theorem mem_allPlanes (q : Plane) : q ∈ allPlanes := by revert q; decide

/-- The planes stand in the list at their own numbers. -/
theorem getElem_allPlanes {i : Nat} (h : i < allPlanes.length) : allPlanes[i] = (⟨i, h⟩ : Plane) := by
  have hall : ∀ q : Plane, allPlanes[q.val]'q.isLt = q := by decide
  exact hall ⟨i, h⟩

/-- A search through the planes finds the lowest one that passes. -/
theorem find?_allPlanes_eq_some {f : Plane → Bool} {q : Plane} :
    allPlanes.find? f = some q ↔ f q = true ∧ ∀ q' < q, f q' = false := by
  simp only [List.find?_eq_some_iff_getElem, getElem_allPlanes, Bool.not_eq_true']
  constructor
  · rintro ⟨hq, i, hi, rfl, hlower⟩
    exact ⟨hq, fun q' hq' => hlower q'.val hq'⟩
  · rintro ⟨hq, hlower⟩
    exact ⟨hq, q.val, q.isLt, rfl, fun j hj => hlower ⟨j, Nat.lt_trans hj q.isLt⟩ hj⟩

/-- A search through the planes finds none when none passes. -/
theorem find?_allPlanes_eq_none {f : Plane → Bool} : allPlanes.find? f = none ↔ ∀ q, f q = false := by
  simp only [List.find?_eq_none, mem_allPlanes, forall_const, Bool.not_eq_true]

/-- What CLAIM ANY-PLANE looks for in a plane (R121). -/
def State.claimable (s : State) (q : Plane) : Bool := s.claimOf (.plane q) == .free && !s.live.isGuarded q

theorem State.claimable_eq_true {s : State} {q : Plane} :
    s.claimable q = true ↔ s.claimOf (.plane q) = .free ∧ s.live.isGuarded q = false := by
  simp only [State.claimable, Bool.and_eq_true, beq_iff_eq, Bool.not_eq_true']

theorem State.claimable_eq_false {s : State} {q : Plane} :
    s.claimable q = false ↔ s.claimOf (.plane q) ≠ .free ∨ s.live.isGuarded q = true := by
  simp only [State.claimable, Bool.and_eq_false_iff, beq_eq_false_iff_ne, Bool.not_eq_false']

theorem State.anyPlane_eq_find? (s : State) : s.anyPlane = allPlanes.find? s.claimable := rfl

/-- The plane that is taken is the lowest one that is Free and not guarded. -/
theorem State.anyPlane_eq_some {s : State} {q : Plane} :
    s.anyPlane = some q ↔ s.claimable q = true ∧ ∀ q' < q, s.claimable q' = false := by
  rw [State.anyPlane_eq_find?, find?_allPlanes_eq_some]

/-- No plane is taken exactly when each one is claimed or guarded. -/
theorem State.anyPlane_eq_none {s : State} : s.anyPlane = none ↔ ∀ q, s.claimable q = false := by
  rw [State.anyPlane_eq_find?, find?_allPlanes_eq_none]

theorem claimAny_of_some {s : State} {q : Plane} (h : s.anyPlane = some q) (p : Port) :
    claimAny p s = (.done .ok [0, byteOf q.val, 0], s.setClaim (.plane q) (.held p)) := by
  simp only [claimAny, h, State.setClaim]

theorem claimAny_of_none {s : State} (h : s.anyPlane = none) (p : Port) : claimAny p s = (.done .noneFree [], s) := by
  simp only [claimAny, h]

/-- Whichever plane is taken, no session changes. -/
theorem claimAny_session (p : Port) (s : State) (k : Port) : (claimAny p s).2.session k = s.session k := by
  cases h : s.anyPlane with
  | none => rw [claimAny_of_none h]
  | some q => rw [claimAny_of_some h, State.setClaim_session]

/-- The row of CLAIM ANY-PLANE writes a CLAIM frame of that kind. -/
theorem exec_claimAnyPlane_eq_claim (p : Port) (session number : Byte) (s : State) :
    exec (.claimAnyPlane p session number) s = exec (.claim p session [2, number]) s := rfl

/-- In session, CLAIM ANY-PLANE is answered as its action says, whatever the number byte (R119). -/
theorem exec_claimAnyPlane {s : State} {p : Port} {session : Byte} (hr : s.Ready p) (hi : s.InSession p session)
    (number : Byte) :
    exec (.claimAnyPlane p session number) s = .next (State.afterReply p 0x05 (claimAny p s)) := by
  have hact : ownerAct .claim p session [2, number] s = claimAny p s := rfl
  rw [exec_claimAnyPlane_eq_claim, ← hact]
  exact exec_row_afterReply (c := .claim) hr hi (by decide : 2 ≤ 61) (by decide) (by decide) rfl
    (claimAny_session p s p)

/-- Settles O16: the search takes the lowest plane that can be claimed, or finds none. -/
theorem claimAnyPlaneTakesTheLowest : Obligations.ClaimAnyPlaneTakesTheLowest := by
  unfold Obligations.ClaimAnyPlaneTakesTheLowest
  intro s p session number hr hi
  refine ⟨(exec_claimAnyPlane_eq_claim p session number s).symm, fun q hfree hguard hlower => ?_, fun hnone => ?_⟩
  · have hq : s.anyPlane = some q :=
      State.anyPlane_eq_some.2
        ⟨State.claimable_eq_true.2 ⟨hfree, hguard⟩, fun q' hq' => State.claimable_eq_false.2 (hlower q' hq')⟩
    rw [exec_claimAnyPlane hr hi, claimAny_of_some hq, State.afterReply_done]
  · have hq : s.anyPlane = none := State.anyPlane_eq_none.2 fun q => State.claimable_eq_false.2 (hnone q)
    rw [exec_claimAnyPlane hr hi, claimAny_of_none hq, State.afterReply_done]

end Sys2Proof.Machine
end

section
/-! GUARD edits (R138, R139, Table 8.2): a guard set sends its plane to the top of the Stacking List with a new record, a
guard cleared removes the record and lets the plane down to the top of the unguarded band. -/

namespace Sys2Proof.Machine

/-! ### The Guard List and the Stacking List -/

/-- A replaced guard record decides whether its own plane is guarded, and no other. -/
@[simp] theorem Live.isGuarded_setGuard (l : Live) (p : Plane) (r : Option GuardRecord) (q : Plane) :
    (l.setGuard p r).isGuarded q = if q = p then r.isSome else l.isGuarded q := by
  simp only [Live.isGuarded, Live.setGuard, Fin.getElem_fin, Vector.getElem_set, Fin.ext_iff, eq_comm,
    apply_ite Option.isSome]

/-- A list that holds each plane once holds, with p taken out, exactly the other planes. -/
theorem mem_erase_of_perm_allPlanes {order : List Plane} (h : order.Perm allPlanes) {p q : Plane} :
    q ∈ order.erase p ↔ q ≠ p := by
  have hnodup : order.Nodup := h.nodup_iff.2 (by decide)
  rw [hnodup.mem_erase_iff, and_iff_left (h.mem_iff.2 (mem_allPlanes q))]

/-! ### What GUARD set and clear do to the Live State -/

theorem Live.setGuarded_of_guarded {l : Live} {p : Plane} (h : l.isGuarded p = true) : l.setGuarded p = l := if_pos h

theorem Live.setGuarded_of_unguarded {l : Live} {p : Plane} (h : l.isGuarded p = false) :
    l.setGuarded p = { l.setGuard p (some .fresh) with order := l.order.erase p ++ [p] } :=
  if_neg (Bool.eq_false_iff.1 h)

theorem Live.clearGuarded_of_unguarded {l : Live} {p : Plane} (h : l.isGuarded p = false) : l.clearGuarded p = l :=
  if_neg (Bool.eq_false_iff.1 h)

theorem Live.clearGuarded_of_guarded {l : Live} {p : Plane} (h : l.isGuarded p = true) :
    l.clearGuarded p =
      { l.setGuard p none with
        order :=
          if allPlanes.any (l.setGuard p none).isGuarded then
            placeAtBorder (l.setGuard p none).isGuarded p (l.order.erase p)
          else l.order } :=
  if_pos h

/-! ### Whole bands -/

section
variable {l : Live} {p : Plane} {low high : List Plane}

/-- The removal of p's record leaves every other plane as guarded as it was. -/
theorem Live.isGuarded_setGuard_none_of_mem (hperm : l.order.Perm allPlanes) {q : Plane} (hq : q ∈ l.order.erase p) :
    (l.setGuard p none).isGuarded q = l.isGuarded q := by
  rw [Live.isGuarded_setGuard, if_neg ((mem_erase_of_perm_allPlanes hperm).1 hq)]

/-- Without p's record some plane is still guarded exactly when the upper band of the other planes is not empty. -/
theorem Live.any_isGuarded_setGuard_none (hrest : l.order.erase p = low ++ high)
    (hl : ∀ q ∈ low, l.isGuarded q = false) (hh : ∀ q ∈ high, l.isGuarded q = true)
    (hperm : l.order.Perm allPlanes) :
    allPlanes.any (l.setGuard p none).isGuarded = true ↔ high ≠ [] := by
  rw [List.any_eq_true]
  constructor
  · rintro ⟨q, -, hq⟩
    obtain ⟨hne, hguarded⟩ : q ≠ p ∧ l.isGuarded q = true := by simpa using hq
    have hmem : q ∈ low ++ high := hrest ▸ (mem_erase_of_perm_allPlanes hperm).2 hne
    refine List.ne_nil_of_mem ((List.mem_append.1 hmem).resolve_left fun hlow => ?_)
    simp [hl q hlow] at hguarded
  · intro hne
    obtain ⟨q, hq⟩ := List.exists_mem_of_ne_nil high hne
    have hmem : q ∈ l.order.erase p := hrest ▸ List.mem_append_right low hq
    exact ⟨q, mem_allPlanes q, (Live.isGuarded_setGuard_none_of_mem hperm hmem).trans (hh q hq)⟩

/-- With whole bands, a cleared plane goes to their border, or keeps its place when the last record is gone. -/
theorem Live.clearGuarded_bands (hrest : l.order.erase p = low ++ high)
    (hl : ∀ q ∈ low, l.isGuarded q = false) (hh : ∀ q ∈ high, l.isGuarded q = true)
    (hperm : l.order.Perm allPlanes) (hp : l.isGuarded p = true) :
    l.clearGuarded p =
      { l.setGuard p none with order := if high = [] then l.order else low ++ p :: high } := by
  have hkept : ∀ q ∈ low ++ high, (l.setGuard p none).isGuarded q = l.isGuarded q := fun q hq =>
    Live.isGuarded_setGuard_none_of_mem hperm (hrest ▸ hq)
  have hborder : placeAtBorder (l.setGuard p none).isGuarded p (l.order.erase p) = low ++ p :: high := by
    rw [hrest]
    exact placeAtBorder_bands p (fun q hq => (hkept q (List.mem_append_left _ hq)).trans (hl q hq))
      (fun q hq => (hkept q (List.mem_append_right _ hq)).trans (hh q hq))
  simp only [Live.clearGuarded_of_guarded hp, hborder, Live.any_isGuarded_setGuard_none hrest hl hh hperm, ne_eq,
    ite_not]

end

/-! ### GUARD edits of the working copy -/

theorem Work.edit_guard_set (w : Work) (index : Nat) (p : Plane) :
    w.edit index (.guard p true) =
      { w with
        live := w.live.setGuarded p
        guardSet := if w.live.isGuarded p then w.guardSet else some index } := rfl

theorem Work.edit_guard_clear (w : Work) (index : Nat) (p : Plane) :
    w.edit index (.guard p false) = { w with live := w.live.clearGuarded p } := rfl

/-- Settles O43: each edit acts on one side only, a set on an unguarded plane and a clear on a guarded one; the bands say
where the cleared plane goes. -/
theorem guardEditsMoveThePlaneBetweenTheBands : Obligations.GuardEditsMoveThePlaneBetweenTheBands := by
  unfold Obligations.GuardEditsMoveThePlaneBetweenTheBands
  intro w index p low high hrest hl hh hperm
  refine ⟨fun hp => ⟨?_, ?_⟩, fun hp => ⟨?_, ?_⟩⟩
  · rw [Work.edit_guard_set, Live.setGuarded_of_unguarded hp, hrest, hp]
    rfl
  · rw [Work.edit_guard_clear, Live.clearGuarded_of_unguarded hp]
  · rw [Work.edit_guard_set, Live.setGuarded_of_guarded hp, if_pos hp]
  · rw [Work.edit_guard_clear, Live.clearGuarded_bands hrest hl hh hperm hp]
    rfl

end Sys2Proof.Machine
end

section
/-! Taking a post (R152, Table 9.3) and READ_NOTICES (R155, R176). -/

namespace Sys2Proof.Machine

/-! ### Taking a post -/

theorem NoticeQueue.take_of_room {q : NoticeQueue} (h : q.records.length < 16) (n : Notice) :
    q.take n = { q with records := q.records ++ [n] } := if_pos h

/-- A queue that has no room keeps its records; only the dropped count may move. -/
theorem NoticeQueue.take_of_full {q : NoticeQueue} (h : 16 ≤ q.records.length) (n : Notice) :
    q.take n = { q with dropped := if q.dropped < 255 then q.dropped + 1 else q.dropped } :=
  if_neg (Nat.not_lt.2 h)

theorem NoticeQueue.take_of_full_of_lt {q : NoticeQueue} (h : 16 ≤ q.records.length) (hd : q.dropped < 255)
    (n : Notice) : q.take n = { q with dropped := q.dropped + 1 } := by
  rw [NoticeQueue.take_of_full h, if_pos hd]

theorem NoticeQueue.take_of_full_of_le {q : NoticeQueue} (h : 16 ≤ q.records.length) (hd : 255 ≤ q.dropped)
    (n : Notice) : q.take n = q := by
  rw [NoticeQueue.take_of_full h, if_neg (Nat.not_lt.2 hd)]

/-- A port that is not Detached takes every post, and a Detached one takes SESSION_ENDED. -/
theorem State.post_of_taken {s : State} {p : Port} {n : Notice}
    (h : (s.session p).state ≠ .detached ∨ n.kind = .sessionEnded) :
    s.post p n = s.setNotices p ((s.noticeQueue p).take n) := by
  rw [State.post_eq, if_neg]
  rintro ⟨hdetached, hkind⟩
  exact h.elim (fun hstate => hstate hdetached) hkind

theorem State.post_of_discarded {s : State} {p : Port} {n : Notice} (hdetached : (s.session p).state = .detached)
    (hkind : n.kind ≠ .sessionEnded) : s.post p n = s := by
  rw [State.post_eq, if_pos ⟨hdetached, hkind⟩, State.setNotices_self]

/-- Settles O33: a post that is taken meets a queue with room, one that counts, or one whose count stands at 255. -/
theorem noticeQueueTakesAPost : Obligations.NoticeQueueTakesAPost := by
  unfold Obligations.NoticeQueueTakesAPost
  intro s p n q
  refine ⟨fun htaken => ?_, State.post_of_discarded⟩
  rw [State.post_of_taken htaken]
  refine ⟨fun hroom => ?_, fun hfull hcount => ?_, fun hfull hcount => ?_⟩
  · rw [NoticeQueue.take_of_room hroom]
  · rw [NoticeQueue.take_of_full_of_lt hfull hcount]
  · rw [NoticeQueue.take_of_full_of_le hfull hcount]

/-! ### READ_NOTICES -/

theorem noticesBytes_eq_flatMap (l : List Notice) : noticesBytes l = l.flatMap Notice.bytes := by
  induction l with
  | nil => rfl
  | cons n rest ih => rw [noticesBytes, ih, List.flatMap_cons]

/-- What is delivered: the number of records, the dropped count, and the oldest 7 records in their order (R155). -/
theorem NoticeQueue.delivery_eq (q : NoticeQueue) :
    q.delivery
      = [byteOf (min 7 q.records.length), byteOf q.dropped] ++ (q.records.take 7).flatMap Notice.bytes := by
  simp only [NoticeQueue.delivery, Config.noticesPerRead, List.length_take, noticesBytes_eq_flatMap, List.cons_append,
    List.nil_append]

theorem readNoticesAct_nil (p : Port) (s : State) :
    readNoticesAct p [] s
      = (.done .ok (s.noticeQueue p).delivery,
          s.setNotices p { records := (s.noticeQueue p).records.drop 7, dropped := 0 }) := rfl

theorem readNoticesAct_of_ne_nil {payload : List Byte} (h : payload ≠ []) (p : Port) (s : State) :
    readNoticesAct p payload s = (.done .badArg [], s) := by
  cases payload with
  | nil => exact absurd rfl h
  | cons => rfl

/-- READ_NOTICES passes the common checks in every session state, whatever the session byte (Table 6.2). -/
theorem exec_readNotices {s t : State} {p : Port} {payload : List Byte} {k : Completion} {out : List Byte}
    (hr : s.Ready p) (hl : payload.length ≤ 61) (hact : readNoticesAct p payload s = (.done k out, t))
    (session : Byte) :
    exec (.readNotices p session payload) s = .next (t.withReplyInAnyState p k 0x21 out) := by
  have howner : ownerAct .readNotices p session payload s = (.done k out, t) := hact
  have hopen : Command.readNotices.supervisorOnly = true → s.supervisor = some p := fun h => absurd h (by decide)
  have hrow := exec_row_run (c := .readNotices) (session := session) hr hl (by decide) rfl hopen
  rw [howner] at hrow
  exact hrow

/-- Settles O25: the action of READ_NOTICES without and with a payload; the bytes of a record agree with R176 one by
one. -/
theorem readNoticesDeliversTheOldest : Obligations.ReadNoticesDeliversTheOldest := by
  unfold Obligations.ReadNoticesDeliversTheOldest
  refine ⟨?_, rfl, rfl, rfl⟩
  intro s p session hr q kind bytes
  have hkind : ∀ k : NoticeKind, k.code = kind k := fun k => by cases k <;> rfl
  have hbytes : Notice.bytes = bytes := by
    funext n
    simp only [Notice.bytes, bytes, hkind, List.cons.injEq, true_and, and_true]
    refine ⟨?subject, ?batch, ?resource⟩
    case subject => cases n.subject <;> rfl
    case batch => cases n.batch <;> rfl
    case resource => rcases n.resource with _ | plane | bank <;> rfl
  refine ⟨?_, fun payload hne hl => ?_⟩
  · rw [exec_readNotices hr (by simp) (readNoticesAct_nil p s), NoticeQueue.delivery_eq, hbytes]
  · exact exec_readNotices hr hl (readNoticesAct_of_ne_nil hne p s) session

end Sys2Proof.Machine
end

section
/-! What the owning blocks can do, said once (Table 10.4): `Acted` lists the outcomes of a command whose common checks
have passed, with what is known of the state in which each is taken. -/

namespace Sys2Proof.Machine

/-! ### A staged edit is in range (R56 to R60) -/

theorem inRange_eq_some {lo hi n m : Nat} (h : inRange lo hi n = some m) : lo ≤ m ∧ m ≤ hi := by
  unfold inRange at h
  split at h
  · cases h
    assumption
  · cases h

/-- A part that is present in the bytes is present in the value. -/
theorem isSome_of_partValue {α : Type} {decode : List Byte → Option α} {part : Option (List Byte)} {v : Option α}
    (h : partValue decode part = some v) : v.isSome = part.isSome := by
  cases part with
  | none => cases h; rfl
  | some bytes =>
    obtain ⟨a, -, rfl⟩ := Option.map_eq_some_iff.1 h
    rfl

/-- A range that every decoded value keeps holds of a part. -/
theorem optionIn_of_partValue {decode : List Byte → Option Nat} {lo hi : Nat} {part : Option (List Byte)}
    {v : Option Nat} (hd : ∀ bytes n, decode bytes = some n → lo ≤ n ∧ n ≤ hi) (h : partValue decode part = some v) :
    optionIn lo hi v := by
  cases part with
  | none => cases h; trivial
  | some bytes =>
    obtain ⟨n, hn, rfl⟩ := Option.map_eq_some_iff.1 h
    exact hd bytes n hn

theorem rangePart_bounds {lo hi : Nat} (bytes : List Byte) (n : Nat) (h : rangePart lo hi bytes = some n) :
    lo ≤ n ∧ n ≤ hi := by
  unfold rangePart at h
  split at h
  · exact inRange_eq_some h
  · cases h

theorem oneByte_bounds {lo hi : Nat} (bytes : List Byte) (n : Nat)
    (h : oneByte (fun b => inRange lo hi b.toNat) bytes = some n) : lo ≤ n ∧ n ≤ hi := by
  unfold oneByte at h
  split at h
  · exact inRange_eq_some h
  · cases h

theorem takePart_isSome (present : Bool) (n : Nat) (bytes : List Byte) : (takePart present n bytes).1.isSome = present := by
  cases present <;> rfl

/-- A mask that is not 0 has a bit. -/
theorem exists_bit_of_ne_zero : ∀ mask : Byte, mask ≠ 0 →
    mask.getLsbD 0 ∨ mask.getLsbD 1 ∨ mask.getLsbD 2 ∨ mask.getLsbD 3 ∨ mask.getLsbD 4 ∨ mask.getLsbD 5
      ∨ mask.getLsbD 6 ∨ mask.getLsbD 7 := by decide

/-- Of a mask whose size is reckoned, a bit that is set is that of a PLANE part. -/
theorem planePartsSize_bits {mask : Byte} {parts : List Byte} {n : Nat} (h : planePartsSize mask parts = some n) :
    mask.getLsbD 6 = false ∧ mask.getLsbD 7 = false := by
  unfold planePartsSize at h
  split at h
  · cases h
  · rename_i hb
    simpa using hb

theorem planeEditOf_wf {plane : Plane} {mask : Byte} {parts : List Byte} {e : PlaneEdit}
    (h6 : mask.getLsbD 6 = false) (h7 : mask.getLsbD 7 = false) (h : planeEditOf plane mask parts = some e) :
    (Edit.plane e).wf := by
  unfold planeEditOf at h
  split at h
  · cases h
  · rename_i hm
    simp only [Option.bind_eq_bind, Option.bind_eq_some_iff, Option.pure_def, Option.some.injEq] at h
    obtain ⟨_, h0, _, h1, _, h2, _, h3, _, h4, _, h5, rfl⟩ := h
    simp only [Edit.wf, PlaneEdit.nonempty, isSome_of_partValue h0, isSome_of_partValue h1, isSome_of_partValue h2,
      isSome_of_partValue h3, isSome_of_partValue h4, isSome_of_partValue h5, takePart_isSome]
    have hbit := exists_bit_of_ne_zero mask hm
    simpa only [h6, h7, Bool.false_eq_true, or_false] using hbit

theorem scanEditOf_wf {mask : Byte} {parts : List Byte} {e : ScanEdit} (h : scanEditOf mask parts = some e) :
    (Edit.scan e).wf := by
  unfold scanEditOf at h
  split at h
  · cases h
  · rename_i hm
    simp only [Option.bind_eq_bind, Option.bind_eq_some_iff, Option.pure_def, Option.some.injEq] at h
    obtain ⟨_, h0, _, h1, _, h2, _, h3, _, h4, _, h5, _, h6, _, h7, rfl⟩ := h
    refine ⟨?_, optionIn_of_partValue rangePart_bounds h0, optionIn_of_partValue rangePart_bounds h1,
      optionIn_of_partValue rangePart_bounds h2, optionIn_of_partValue oneByte_bounds h3,
      optionIn_of_partValue oneByte_bounds h5⟩
    simp only [ScanEdit.nonempty, isSome_of_partValue h0, isSome_of_partValue h1, isSome_of_partValue h2,
      isSome_of_partValue h3, isSome_of_partValue h4, isSome_of_partValue h5, isSome_of_partValue h6,
      isSome_of_partValue h7, takePart_isSome]
    exact exists_bit_of_ne_zero mask hm

theorem coloursOf_length : ∀ (n : Nat) (bytes : List Byte), bytes.length = 3 * n → (coloursOf bytes).length = n
  | 0, bytes, h => by
    obtain rfl : bytes = [] := List.length_eq_zero_iff.1 h
    rfl
  | n + 1, bytes, h => by
    match bytes, h with
    | r :: g :: b :: rest, h =>
      have hrest : rest.length = 3 * n := by
        simp only [List.length_cons] at h
        omega
      simp only [coloursOf, List.length_cons, coloursOf_length n rest hrest]
    | [], h => simp at h
    | [_], h => simp at h; omega
    | [_, _], h => simp at h; omega

theorem coloursEditOf_wf {bank : Bank} {first count reserved : Byte} {bytes : List Byte} {e : Edit}
    (hl : bytes.length = 3 * count.toNat) (h : coloursEditOf bank first count reserved bytes = some e) : e.wf := by
  unfold coloursEditOf at h
  split at h
  · rename_i hr
    cases h
    simp only [Edit.wf, coloursOf_length _ _ hl]
    omega
  · cases h

theorem orderFormOf_wf {p : Plane} {form q : Byte} {f : OrderForm} (h : orderFormOf p form q = some f) :
    (Edit.order p f).wf := by
  have hcases : f = .top ∨ f = .bottom ∨ ∃ x, x ≠ p ∧ (f = .above x ∨ f = .below x) := by
    unfold orderFormOf at h
    split at h
    · cases h; exact .inl rfl
    · split at h
      · cases h; exact .inr (.inl rfl)
      · split at h
        · cases h
        · split at h
          · cases h
          · rename_i x _ hne
            (repeat' split at h) <;> cases h
            · exact .inr (.inr ⟨x, hne, .inl rfl⟩)
            · exact .inr (.inr ⟨x, hne, .inr rfl⟩)
  rcases hcases with rfl | rfl | ⟨x, hne, rfl | rfl⟩
  · trivial
  · trivial
  · exact hne
  · exact hne

theorem signatureEditOf_wf {plane : Plane} {form : Byte} {value : BitVec 32} {limit action : Byte} {e : Edit}
    (h : signatureEditOf plane form value limit action = some e) : e.wf := by
  simp only [signatureEditOf, Option.bind_eq_bind, Option.bind_eq_some_iff, Option.pure_def, Option.some.injEq] at h
  obtain ⟨_, -, n, hn, _, -, rfl⟩ := h
  exact inRange_eq_some hn

/-! ### The outcomes of a command (R164, check 4) -/

/-- What the block that owns a command of port p makes of state s: the reply, and the state behind the port. -/
inductive Acted (p : Port) (s : State) : Reply × State → Prop
  /-- Answered, with nothing changed. -/
  | answered (k : Completion) (out : List Byte) : Acted p s (.done k out, s)
  /-- ATTACH: a session begins (R104). -/
  | attached (k : Completion) (out : List Byte) (lease : Byte) (hs : (s.session p).state = .detached)
    (hl : s.roleOf p = .member → lease ≠ 0) :
    Acted p s (.done k out, (((s.setSession p ((s.session p).begun (s.roleOf p) lease)).setStaged p .empty).setNextBatch p
      1).setHistory p [])
  /-- DETACH of a port that holds nothing (R108). -/
  | detached (k : Completion) (out : List Byte) (hs : (s.session p).state = .attached) (hc : s.holdsClaim p = false)
    (hb : s.portBatches p = 0) :
    Acted p s (.done k out, (s.setSession p { s.session p with state := .detached, remaining := 0 }).setStaged p .empty)
  /-- DETACH or EVICT: a lapse begins (R108, R109). -/
  | lapsed (k : Completion) (out : List Byte) (q : Port) (cause : LapseCause) (hs : (s.session q).state = .attached) :
    Acted p s (.done k out, s.beginLapse q cause)
  /-- CLAIM (R120, R121). -/
  | claimed (k : Completion) (out : List Byte) (r : Resource) (hs : (s.session p).state = .attached)
    (hr : s.claimOf r = .free) : Acted p s (.done k out, s.setClaim r (.held p))
  /-- RELEASE (R128). -/
  | released (k : Completion) (out : List Byte) (r : Resource) (hr : s.claimOf r = .held p)
    (hu : s.inUseCause p r = none) : Acted p s (.done k out, s.freed r)
  /-- REVOKE (R130). -/
  | revoked (k : Completion) (out : List Byte) (r : Resource) (q : Port) (hr : s.claimOf r = .held q) :
    Acted p s (.done k out, s.setClaim r (.revoking q))
  /-- A STAGE frame (R63). -/
  | staged (k : Completion) (out : List Byte) (e : Edit) (payload : List Byte) (hs : (s.session p).state = .attached)
    (hwf : e.wf) (hpool : s.poolUsed < 96) (hcap : s.recordsInUse p < 48) :
    Acted p s (.done k out, s.setStaged p ((s.staged p).add e payload))
  /-- DISCARD, or a SEAL refused with the list discarded (R65, R68). -/
  | emptied (k : Completion) (out : List Byte) : Acted p s (.done k out, s.setStaged p .empty)
  /-- SEAL (R72). -/
  | sealed (reply : Reply) (a : SealArgs) (hs : (s.session p).state = .attached) (hne : (s.staged p).list ≠ [])
    (hq : s.queue.length < 8) (hp : s.portBatches p < 4) (hw : reply = .inFlight ↔ a.wait = true) :
    Acted p s (reply, s.sealed p (sealedBatch p a s))
  /-- WITHDRAW of a Queued batch (R96). -/
  | withdrawn (k : Completion) (out : List Byte) (n : Byte) (b : Batch)
    (hb : s.queue.find? (Batch.isNamed p (s.session p).number n) = some b) (hst : b.state = .queued) (e : HistoryEntry) :
    Acted p s (.done k out, { s with queue := s.queue.eraseP (Batch.isNamed p (s.session p).number n) }.record p e)
  /-- WITHDRAW that comes too late uses free values (log entry 15). -/
  | freeValues (k : Completion) (out : List Byte) (n : Nat) : Acted p s (.done k out, { s with freeIndex := n })
  /-- WAIT_FIELD (R49). -/
  | waits (n : Nat) : Acted p s (.inFlight, s.setWaiter p (some { remaining := n, due := none }))
  /-- READ_NOTICES (R155). -/
  | delivered (k : Completion) (out : List Byte) : Acted p s (.done k out, s.setNotices p (s.noticeQueue p).delivered)

section
variable {p : Port} {s : State}

/-- The commands that need a session with the port's own number (Table 6.2) run in an Attached port. -/
theorem attached_of_sessionRefusal {c : Command} {x : Session} {session : Byte} (h : sessionRefusal c x session = none)
    (hattach : c ≠ .attach) (hstatus : c ≠ .status) (hread : c ≠ .readNotices) : x.state = .attached := by
  cases hx : x.state with
  | attached => rfl
  | detached => cases c <;> simp_all [sessionRefusal]
  | lapsing => cases c <;> simp_all [sessionRefusal]

theorem acted_attach {session : Byte} (payload : List Byte) (h : (s.session p).state ≠ .lapsing) :
    Acted p s (attachAct p session payload s) := by
  unfold attachAct
  by_cases ha : (s.session p).state = .attached
  · simp only [if_pos ha]
    exact .answered _ _
  · simp only [if_neg ha]
    split
    · rename_i lease
      split
      · exact .answered _ _
      · split
        · exact .answered _ _
        · rename_i hm
          have hd : (s.session p).state = .detached := by
            cases hs : (s.session p).state <;> simp_all
          exact .attached _ _ lease hd fun hr hl => hm ⟨hr, hl⟩
    · exact .answered _ _

theorem acted_detach (payload : List Byte) (h : (s.session p).state = .attached) :
    Acted p s (detachAct p payload s) := by
  unfold detachAct
  split
  · simp only
    split
    · exact .lapsed _ _ p .detached h
    · rename_i hn
      simp only [Bool.or_eq_true, decide_eq_true_eq, not_or, Bool.not_eq_true, Nat.not_lt, Nat.le_zero] at hn
      exact .detached _ _ h hn.1 hn.2
  · exact .answered _ _

theorem acted_evict (payload : List Byte) : Acted p s (evictAct p payload s) := by
  unfold evictAct
  split
  · split
    · exact .answered _ _
    · split
      · exact .answered _ _
      · rename_i q _ _
        simp only
        split
        · exact .answered _ _
        · exact .answered _ _
        · rename_i hs
          exact .lapsed _ _ q .evicted hs
  · exact .answered _ _

theorem acted_claim (payload : List Byte) (h : (s.session p).state = .attached) : Acted p s (claimAct p payload s) := by
  unfold claimAct
  split
  · split
    · cases hq : s.anyPlane with
      | none =>
        rw [claimAny_of_none hq]
        exact .answered _ _
      | some q =>
        rw [claimAny_of_some hq]
        exact .claimed _ _ (.plane q) h (State.claimable_eq_true.1 (State.anyPlane_eq_some.1 hq).1).1
    · split
      · rename_i r _
        unfold claimNamed
        split
        · rename_i hf
          exact .claimed _ _ r h hf
        · exact .answered _ _
        · exact .answered _ _
      · exact .answered _ _
  · exact .answered _ _

theorem acted_release (payload : List Byte) : Acted p s (releaseAct p payload s) := by
  unfold releaseAct
  split
  · split
    · exact .answered _ _
    · split
      · exact .answered _ _
      · split <;> exact .answered _ _
      · split
        · rename_i r _ _ q hq hp
          split
          · exact .answered _ _
          · rename_i hu
            exact .released _ _ r (hp ▸ hq) hu
        · exact .answered _ _
  · exact .answered _ _

theorem acted_revoke (payload : List Byte) : Acted p s (revokeAct payload s) := by
  unfold revokeAct
  split
  · split
    · exact .answered _ _
    · split
      · exact .answered _ _
      · rename_i r _ _ q hq
        exact .revoked _ _ r q hq
      · exact .answered _ _
  · exact .answered _ _

theorem acted_stageEdit {edit : Option Edit} (payload : List Byte) (h : (s.session p).state = .attached)
    (hwf : ∀ e, edit = some e → e.wf) : Acted p s (stageEdit p payload edit s) := by
  unfold stageEdit
  split
  · exact .answered _ _
  · rename_i e
    split
    · exact .answered _ _
    · rename_i hpool
      split
      · exact .answered _ _
      · rename_i hcap
        simp only [State.poolFree, Config.poolSize] at hpool
        simp only [Config.portCap] at hcap
        exact .staged _ _ e payload h (hwf e rfl) (by omega) (by omega)

theorem acted_stagePlane (payload : List Byte) (h : (s.session p).state = .attached) :
    Acted p s (stagePlaneAct p payload s) := by
  unfold stagePlaneAct
  split
  · split
    · exact .answered _ _
    · split
      · exact .answered _ _
      · rename_i hsize
        obtain ⟨h6, h7⟩ := planePartsSize_bits (Decidable.not_not.1 hsize)
        split
        · exact .answered _ _
        · refine acted_stageEdit _ h fun e he => ?_
          obtain ⟨x, hx, rfl⟩ := Option.map_eq_some_iff.1 he
          exact planeEditOf_wf h6 h7 hx
  · exact .answered _ _

theorem acted_stageColours (payload : List Byte) (h : (s.session p).state = .attached) :
    Acted p s (stageColoursAct p payload s) := by
  unfold stageColoursAct
  split
  · split
    · exact .answered _ _
    · split
      · exact .answered _ _
      · rename_i hlen
        split
        · exact .answered _ _
        · exact acted_stageEdit _ h fun e he => coloursEditOf_wf (Decidable.not_not.1 hlen) he
  · exact .answered _ _

theorem acted_stageOrder (payload : List Byte) (h : (s.session p).state = .attached) :
    Acted p s (stageOrderAct p payload s) := by
  unfold stageOrderAct
  split
  · split
    · exact .answered _ _
    · split
      · exact .answered _ _
      · refine acted_stageEdit _ h fun e he => ?_
        obtain ⟨x, hx, rfl⟩ := Option.map_eq_some_iff.1 he
        exact orderFormOf_wf hx
  · exact .answered _ _

theorem acted_stageSignature (payload : List Byte) (h : (s.session p).state = .attached) :
    Acted p s (stageSignatureAct p payload s) := by
  unfold stageSignatureAct
  split
  · split
    · exact .answered _ _
    · split
      · exact .answered _ _
      · split
        · exact .answered _ _
        · exact acted_stageEdit _ h fun e he => signatureEditOf_wf he
  · exact .answered _ _

theorem acted_stageGuard (payload : List Byte) (h : (s.session p).state = .attached) :
    Acted p s (stageGuardAct p payload s) := by
  unfold stageGuardAct
  split
  · split
    · exact .answered _ _
    · refine acted_stageEdit _ h fun e he => ?_
      obtain ⟨x, -, rfl⟩ := Option.map_eq_some_iff.1 he
      trivial
  · exact .answered _ _

theorem acted_stageScan (payload : List Byte) (h : (s.session p).state = .attached) :
    Acted p s (stageScanAct p payload s) := by
  unfold stageScanAct
  split
  · split
    · exact .answered _ _
    · refine acted_stageEdit _ h fun e he => ?_
      obtain ⟨x, hx, rfl⟩ := Option.map_eq_some_iff.1 he
      exact scanEditOf_wf hx
  · exact .answered _ _

theorem acted_discard (payload : List Byte) : Acted p s (discardAct p payload s) := by
  cases payload with
  | nil => exact .emptied _ _
  | cons => exact .answered _ _

theorem acted_seal (payload : List Byte) (h : (s.session p).state = .attached) : Acted p s (sealAct p payload s) := by
  cases ha : sealArgsOf payload with
  | none =>
    rw [sealAct_of_undecoded ha]
    exact .answered _ _
  | some a =>
    rw [sealAct_of_decoded ha]
    split
    · exact .answered _ _
    · rename_i hne
      (iterate 3 split; exact .emptied _ _)
      split
      · exact .answered _ _
      · split
        · exact .answered _ _
        · rename_i hroom
          split
          · rename_i hw
            exact .sealed _ a h hne (by omega) (by omega) (by simp [hw])
          · rename_i hw
            exact .sealed _ a h hne (by omega) (by omega) (by simp [hw])

theorem acted_withdraw (payload : List Byte) : Acted p s (withdrawAct p payload s) := by
  unfold withdrawAct
  split
  · split
    · exact .answered _ _
    · unfold withdrawNumber
      split
      · rename_i hb
        split
        · rename_i hst
          exact .withdrawn _ _ _ _ hb hst _
        · exact .answered _ _
      · split
        · exact .freeValues _ _ _
        · exact .answered _ _
  · exact .answered _ _

theorem acted_waitField (payload : List Byte) : Acted p s (waitFieldAct p payload s) := by
  unfold waitFieldAct
  split
  · split
    · exact .waits _
    · exact .answered _ _
  · exact .answered _ _

theorem acted_readNotices (payload : List Byte) : Acted p s (readNoticesAct p payload s) := by
  cases payload with
  | nil => exact .delivered _ _
  | cons => exact .answered _ _

/-- STATUS and the queries answer and change nothing. -/
theorem acted_query {c : Command} (session : Byte) (payload : List Byte)
    (hc : c ∈ [Command.status, .queryPlane, .queryOrder, .queryColours, .queryScan, .queryGuard]) :
    Acted p s (ownerAct c p session payload s) := by
  simp only [List.mem_cons, List.not_mem_nil, or_false] at hc
  rcases hc with rfl | rfl | rfl | rfl | rfl | rfl
  · cases payload <;> exact .answered _ _
  · simp only [ownerAct, queryPlaneAct]
    (repeat' split) <;> exact .answered _ _
  · cases payload <;> exact .answered _ _
  · simp only [ownerAct, queryColoursAct]
    (repeat' split) <;> exact .answered _ _
  · cases payload <;> exact .answered _ _
  · cases payload <;> exact .answered _ _

/-- Every command whose session check has passed has one of these outcomes. -/
theorem acted_ownerAct (c : Command) {session : Byte} (payload : List Byte)
    (hpass : sessionRefusal c (s.session p) session = none) : Acted p s (ownerAct c p session payload s) := by
  have hin := attached_of_sessionRefusal hpass
  match c, hpass, hin with
  | .attach, hpass, _ =>
    refine acted_attach payload fun hl => ?_
    rw [sessionRefusal, if_pos hl] at hpass
    cases hpass
  | .detach, _, hin => exact acted_detach payload (hin (by decide) (by decide) (by decide))
  | .evict, _, _ => exact acted_evict payload
  | .claim, _, hin => exact acted_claim payload (hin (by decide) (by decide) (by decide))
  | .release, _, _ => exact acted_release payload
  | .revoke, _, _ => exact acted_revoke payload
  | .stagePlane, _, hin => exact acted_stagePlane payload (hin (by decide) (by decide) (by decide))
  | .stageColours, _, hin => exact acted_stageColours payload (hin (by decide) (by decide) (by decide))
  | .stageOrder, _, hin => exact acted_stageOrder payload (hin (by decide) (by decide) (by decide))
  | .stageSignature, _, hin => exact acted_stageSignature payload (hin (by decide) (by decide) (by decide))
  | .stageGuard, _, hin => exact acted_stageGuard payload (hin (by decide) (by decide) (by decide))
  | .stageScan, _, hin => exact acted_stageScan payload (hin (by decide) (by decide) (by decide))
  | .discard, _, _ => exact acted_discard payload
  | .seal, _, hin => exact acted_seal payload (hin (by decide) (by decide) (by decide))
  | .withdraw, _, _ => exact acted_withdraw payload
  | .waitField, _, _ => exact acted_waitField payload
  | .readNotices, _, _ => exact acted_readNotices payload
  | .status, _, _ => exact acted_query session payload (by decide)
  | .queryPlane, _, _ => exact acted_query session payload (by decide)
  | .queryOrder, _, _ => exact acted_query session payload (by decide)
  | .queryColours, _, _ => exact acted_query session payload (by decide)
  | .queryScan, _, _ => exact acted_query session payload (by decide)
  | .queryGuard, _, _ => exact acted_query session payload (by decide)

end

end Sys2Proof.Machine
end

section
/-! What a step can do, said once: `PortPath` lists what the ports' transactions and commands are made of, and `StepTo`
the outcomes of a row or of an idle step, each with the condition under which it is taken. -/

namespace Sys2Proof.Machine

/-! ### The moves of a port interface -/

/-- A lawful interface (Tables 10.1 and 10.2) moves to a lawful one, which is Executing exactly if it was. -/
def Cpi.Moves (c c' : Cpi) : Prop := c.Lawful → c'.Lawful ∧ (c'.state = .executing ↔ c.state = .executing)

namespace Cpi

variable {c : Cpi}

theorem Lawful.inFlight_eq_none (h : c.Lawful) (hs : c.state ≠ .executing) : c.inFlight = none := by
  cases hf : c.inFlight with
  | none => rfl
  | some code => exact absurd (h.inFlight.1 (by rw [hf]; rfl)) hs

theorem Lawful.lostMark_eq_false (h : c.Lawful) (hs : c.state ≠ .executing) : c.lostMark = false := by
  cases hm : c.lostMark with
  | false => rfl
  | true => exact absurd (h.lostMark hm) hs

/-- A transaction in progress ends, begins or changes, but for the writing of a frame. -/
theorem moves_setBus {bus : Bus} (hold : c.bus ≠ .writing) (hnew : bus ≠ .writing)
    (hheld : bus = .readHeld → c.state = .holding) (hnone : bus = .readNone → c.state = .idle)
    (hstretch : bus = .stretching → c.state = .executing) : c.Moves { c with bus } := fun h =>
  ⟨⟨h.inFlight, h.slotIdle, h.slotExecuting, h.slotHolding, h.prior,
    ⟨fun hw => absurd hw hnew, fun hr => absurd (h.writing.2 hr) hold⟩, h.buffer, hheld, hnone, hstretch, h.lostMark,
    h.pendingGiven, h.pendingPrior⟩, Iff.rfl⟩

/-- No transaction is in progress any more. -/
theorem moves_quiet {bus : Bus} (hold : c.bus ≠ .writing) (hnew : bus = .free ∨ bus = .ignoring) :
    c.Moves { c with bus } := by
  refine moves_setBus hold ?_ ?_ ?_ ?_ <;> rcases hnew with rfl | rfl <;> simp

theorem moves_answered (hb : c.bus = .writing) (k : Completion) (code : Byte) (out : List Byte) :
    c.Moves (c.answered k code out) := by
  intro h
  have hs : c.state ≠ .executing := by
    rw [h.writing.1 hb]
    decide
  refine ⟨⟨?_, ?_, ?_, fun _ => rfl, ?_, ?_, ⟨Nat.zero_le _, fun _ => ⟨rfl, rfl⟩⟩, ?_, ?_, ?_, ?_, ?_, fun _ _ => rfl⟩, ?_⟩
  all_goals simp [Cpi.answered, h.inFlight_eq_none hs, h.lostMark_eq_false hs, hs]

theorem lawful_launched (c : Cpi) (code : Byte) : (c.launched code).Lawful := by
  refine ⟨?_, ?_, fun _ => rfl, ?_, ?_, ?_, ⟨Nat.zero_le _, fun _ => ⟨rfl, rfl⟩⟩, ?_, ?_, ?_, fun _ => rfl, ?_, fun _ _ => rfl⟩
  all_goals simp [Cpi.launched]

theorem moves_backToPrior (hb : c.bus = .writing) (hbuffer : c.buffer = []) (hlong : c.long = false) :
    c.Moves c.backToPrior := by
  intro h
  have hr : c.state = .receiving := h.writing.1 hb
  have hs : c.state ≠ .executing := by
    rw [hr]
    decide
  have hslot := h.prior hr
  have hgiven := h.pendingPrior hr
  have hinFlight := h.inFlight_eq_none hs
  have hlost := h.lostMark_eq_false hs
  cases hp : c.prior with
  | idle =>
    have hnone : c.slot = none := by simpa [hp] using hslot
    have hpending := hgiven hp
    unfold Cpi.backToPrior
    rw [hp]
    refine ⟨⟨?_, fun _ => hnone, ?_, ?_, ?_, ?_, ⟨by simp [hbuffer], fun _ => ⟨hbuffer, hlong⟩⟩, ?_, ?_, ?_, ?_, ?_, ?_⟩, ?_⟩
    all_goals simp [hinFlight, hlost, hpending, hs]
  | holding =>
    have hsome : c.slot.isSome = true := hslot.1 hp
    unfold Cpi.backToPrior
    rw [hp]
    refine ⟨⟨?_, ?_, ?_, fun _ => hsome, ?_, ?_, ⟨by simp [hbuffer], fun _ => ⟨hbuffer, hlong⟩⟩, ?_, ?_, ?_, ?_, ?_, ?_⟩, ?_⟩
    all_goals simp [hinFlight, hlost, hs]

theorem moves_consumed (hb : c.bus = .readHeld) : c.Moves c.consumed := by
  intro h
  have hs : c.state = .holding := h.readHeld hb
  have hne : c.state ≠ .executing := by
    rw [hs]
    decide
  have hbuffer : c.buffer = [] ∧ c.long = false := h.buffer.2 (by rw [hs]; decide)
  refine ⟨⟨?_, fun _ => rfl, ?_, ?_, ?_, ?_, ⟨h.buffer.1, fun _ => hbuffer⟩, ?_, ?_, ?_, ?_, ?_, fun _ _ => rfl⟩, ?_⟩
  all_goals simp [Cpi.consumed, h.inFlight_eq_none hne, h.lostMark_eq_false hne, hs]

/-- A frame begins to be written to a port that is Idle or Holding. -/
theorem moves_received (hs : c.state = .idle ∨ c.state = .holding) {prior : PriorState}
    (hp : prior = .holding ↔ c.state = .holding) (data : List Byte) : c.Moves (c.received prior data) := by
  intro h
  have hne : c.state ≠ .executing := by
    rcases hs with hs | hs <;> rw [hs] <;> decide
  have hslot : prior = .holding ↔ c.slot.isSome = true := by
    rcases hs with hs | hs
    · simp [hp, hs, h.slotIdle hs]
    · simp [hp, hs, h.slotHolding hs]
  have hgiven : prior = .idle → c.pendingGiven = false := by
    intro hi
    refine Bool.eq_false_iff.2 fun hg => ?_
    have hidle := h.pendingGiven hg
    rcases hs with hs | hs
    · exact hidle hs
    · rw [hp.2 hs] at hi
      cases hi
  have hbuffer : (data.take 64).length ≤ 64 := List.length_take_le 64 data
  refine ⟨⟨?_, ?_, ?_, ?_, fun _ => hslot, ?_, ⟨hbuffer, fun hn => absurd rfl hn⟩, ?_, ?_, ?_, ?_, ?_, fun _ => hgiven⟩, ?_⟩
  all_goals simp [Cpi.received, h.inFlight_eq_none hne, h.lostMark_eq_false hne, hne]

theorem moves_pendingSent (hb : c.bus = .stretching) : c.Moves c.pendingSent := by
  intro h
  have hs : c.state = .executing := h.stretching hb
  refine ⟨⟨h.inFlight, h.slotIdle, h.slotExecuting, h.slotHolding, h.prior, ?_, h.buffer, ?_, ?_, ?_, h.lostMark, ?_, ?_⟩,
    Iff.rfl⟩
  all_goals simp [Cpi.pendingSent, hs]

end Cpi

/-! ### The transactions of the ports -/

/-- The states reached from s by what happens at port p, with at most n commands taken: the port's CPI moves, or the frame
in its buffer is taken and its command acted on. -/
inductive PortPath (p : Port) (s : State) : Nat → State → Prop
  | refl : PortPath p s 0 s
  | more {n : Nat} {t : State} (h : PortPath p s n t) : PortPath p s (n + 1) t
  | setCpi {n : Nat} {t : State} (h : PortPath p s n t) {c : Cpi} (hc : (t.cpi p).Moves c) : PortPath p s n (t.setCpi p c)
  | command {n : Nat} {t : State} (h : PortPath p s n t) (hb : (t.cpi p).bus = .writing) (code : Byte) {r : Reply × State}
    (ha : Acted p t r) : PortPath p s (n + 1) (r.2.finish p code r.1)

namespace PortPath

variable {p : Port} {s t : State} {n : Nat}

/-- A property that a written CPI, a restarted lease and a command keep is kept by what happens at the port. -/
theorem keeps {P : State → Prop} (h : PortPath p s n t) (hs : P s) (setCpi : ∀ s c, P s → P (s.setCpi p c))
    (restartLease : ∀ s, P s → P (s.restartLease p)) (acted : ∀ s r, P s → Acted p s r → P r.2) : P t := by
  induction h with
  | refl => exact hs
  | more _ ih => exact ih
  | setCpi _ _ ih => exact setCpi _ _ ih
  | command _ _ code ha ih =>
    unfold State.finish
    split
    · exact setCpi _ _ (restartLease _ (acted _ _ ih ha))
    · exact setCpi _ _ (acted _ _ ih ha)

theorem answer (h : PortPath p s n t) (hb : (t.cpi p).bus = .writing) (k : Completion) (code : Byte) (out : List Byte) :
    PortPath p s n (t.answer p k code out) := .setCpi h (Cpi.moves_answered hb k code out)

theorem takeCommand (h : PortPath p s n t) (hb : (t.cpi p).bus = .writing) (code session : Byte) (payload : List Byte) :
    PortPath p s (n + 1) (t.takeCommand p code session payload) := by
  unfold State.takeCommand
  split
  · exact .more (h.answer hb _ _ _)
  · split
    · exact .more (h.answer hb _ _ _)
    · rename_i hpass
      unfold State.runCommand
      split
      · exact .command h hb _ (.answered .notSupervisor [])
      · exact .command h hb _ (acted_ownerAct _ payload hpass)

theorem endWrite (h : PortPath p s n t) : PortPath p s (n + 1) (t.endWrite p) := by
  unfold State.endWrite
  split
  · rename_i hb
    split
    · rename_i hempty
      simp only [Bool.and_eq_true, List.isEmpty_iff, Bool.not_eq_true'] at hempty
      exact .more (.setCpi h (Cpi.moves_backToPrior hb hempty.1 hempty.2))
    · unfold State.judgeFrame
      split
      · exact .more (h.answer hb _ _ _)
      · split
        · split
          · exact h.takeCommand hb _ _ _
          · exact .more (h.answer hb _ _ _)
        · exact .more (h.answer hb _ _ _)
  · rename_i hb
    exact .more (.setCpi h (Cpi.moves_quiet (by rw [hb]; decide) (.inl rfl)))
  all_goals exact .more h

theorem endRead (h : PortPath p s n t) (k : Nat) : PortPath p s n (t.endRead p k) := by
  unfold State.endRead
  split
  · rename_i hb
    split
    · exact .setCpi h (Cpi.moves_consumed hb)
    · exact .setCpi h (Cpi.moves_quiet (by rw [hb]; decide) (.inl rfl))
  · rename_i hb
    exact .setCpi h (Cpi.moves_quiet (by rw [hb]; decide) (.inl rfl))
  · rename_i hb
    exact .setCpi h (Cpi.moves_quiet (by rw [hb]; simp) (.inl rfl))
  all_goals exact h

theorem startCondition (h : PortPath p s n t) (kind : StartKind) : PortPath p s (n + 1) (t.startCondition p kind) := by
  unfold State.startCondition
  split
  · rename_i hb
    exact .more (.setCpi h (Cpi.moves_quiet (by rw [hb]; decide) (.inl rfl)))
  · exact h.endWrite.endRead 0

theorem writeMatch (h : PortPath p s n t) (address : AddressByte) (data : List Byte) :
    PortPath p s (n + 1) (t.writeMatch p address data) := by
  have hstart := h.startCondition address.kind
  unfold State.writeMatch
  simp only
  split
  · exact hstart
  · split
    · rename_i hs
      exact .setCpi hstart (Cpi.moves_received (.inl hs) (by rw [hs]; simp) data)
    · rename_i hs
      exact .setCpi hstart (Cpi.moves_received (.inr hs) (by simp [hs]) data)
    · rename_i hb hs
      exact .setCpi hstart (Cpi.moves_setBus (by rw [hb]; decide) (by decide) (by simp) (by simp) (by simp))
    · exact hstart

theorem readMatch (h : PortPath p s n t) (address : AddressByte) : PortPath p s (n + 1) (t.readMatch p address) := by
  have hstart := h.startCondition address.kind
  unfold State.readMatch
  simp only
  split
  · exact hstart
  · split
    · rename_i hb hs
      exact .setCpi hstart (Cpi.moves_setBus (by rw [hb]; decide) (by decide) (by simp) (fun _ => hs) (by simp))
    · rename_i hb hs
      exact .setCpi hstart (Cpi.moves_setBus (by rw [hb]; decide) (by decide) (fun _ => hs) (by simp) (by simp))
    · rename_i hb hs
      exact .setCpi hstart (Cpi.moves_setBus (by rw [hb]; decide) (by decide) (by simp) (by simp) (fun _ => hs))
    · exact hstart

/-- A frame command may find a write that it ends, whose command is taken before its own. -/
theorem sendFrame (h : PortPath p s n t) (c : Command) (session : Byte) (payload : List Byte) :
    PortPath p s (n + 2) (t.sendFrame p c session payload) := by
  unfold State.sendFrame
  split
  · exact (h.writeMatch _ _).endWrite
  · exact .more (.more h)

theorem abandon (h : PortPath p s n t) : PortPath p s n (t.abandon p) := by
  have hignore : (t.cpi p).bus ≠ .writing → PortPath p s n (t.ignoreBus p) := fun hb =>
    .setCpi h (Cpi.moves_quiet hb (.inr rfl))
  unfold State.abandon
  split
  · rename_i hb
    have hfree := (State.answer_freed t t p .frameError ((t.cpi p).buffer.headD 0)
      [4, byteOf (t.cpi p).buffer.length] rfl).1
    exact .setCpi (h.answer hb _ _ _) (Cpi.moves_quiet (by rw [hfree]; decide) (.inr rfl))
  · exact hignore (by simp_all)
  · exact hignore (by simp_all)
  · exact hignore (by simp_all)
  · exact hignore (by simp_all)
  · exact hignore (by simp_all)
  · exact h
  · exact h

end PortPath

/-! ### The rows -/

/-- The state after the comparisons of a Blank Start (R144). -/
def State.compared (s : State) : State := allPlanes.foldl State.comparePlane s

/-- The state after the lapses of the three ports (R112). -/
def State.lapsesCompleted (s : State) (field : Byte) : State :=
  ((s.completeLapse field 0).completeLapse field 1).completeLapse field 2

/-- The state after the revocations of all planes and then all banks (R132, R133). -/
def State.revocationsCompleted (s : State) (field : Byte) : State :=
  allBanks.foldl (State.revokeBank field) (allPlanes.foldl (State.revokePlane field) s)

/-- What becomes of a state in one step. -/
inductive StepTo (s : State) : State → Prop
  | stays : StepTo s s
  | port {t : State} (p : Port) (h : PortPath p s 2 t) : StepTo s t
  | idle (hn : s.nreset = true) (he : s.eventDue = false) : StepTo s (s.edge s.compose.sampleA s.compose.sampleB)
  | reset (addrsel : Bool) (supsel : BitVec 2) :
    StepTo s { State.deviceReset false addrsel supsel s.pending with freeIndex := s.freeIndex }
  | release (hn : s.nreset = false) : StepTo s ({ s with nreset := true }.beginField false)
  | fieldStart (hn : s.nreset = true) (hr : s.timing.region = .blanking) (hw : s.window = none) :
    StepTo s ({ s with compose := { s.compose with pipe := .lineEnd true } }.endBlanking.takeScan.beginField
      s.live.pendingMark)
  | waitEnds (hn : s.nreset = true) (p : Port) (w : Waiter) (field : Byte) (hw : s.timing.waiters[p] = some w)
    (hd : w.due = some field) : StepTo s ((s.setWaiter p none).complete p .ok [field])
  | refIn (hn : s.nreset = true) (hf : s.timing.refState ≠ .free) :
    StepTo s { s with timing := { s.timing with pendingRef := true } }
  | pixel (hn : s.nreset = true) (x y : Nat) (a b : Sample) (ha : s.timing.ahead x y = true)
    (hx : x < s.live.scan.width) (hy : y < s.live.scan.height) : StepTo s ((s.skipTo x y).edge a b)
  | blankStart (hn : s.nreset = true) (hr : s.timing.region = .active) :
    StepTo s
      { s.openWindow with
        timing := { s.timing with region := .blanking, line := 0, pixel := 0 }
        monitor := { s.monitor with compareDue := true }
        compose := { s.compose with reportDue := true, pipe := .lineEnd false } }
  | faults (hn : s.nreset = true) :
    StepTo s { s.faultsReported with compose := { s.faultsReported.compose with reportDue := false } }
  | compare (hn : s.nreset = true) :
    StepTo s { s.compared with monitor := { s.compared.monitor with compareDue := false } }
  | lapses (hn : s.nreset = true) (w : Window) (hw : s.window = some w) (hst : w.stage = .lapses) :
    StepTo s { s.lapsesCompleted w.field with window := some { w with stage := .revocations } }
  | revocations (hn : s.nreset = true) (w : Window) (hw : s.window = some w) (hst : w.stage = .revocations) :
    StepTo s { s.revocationsCompleted w.field with window := some { w with stage := .scan } }
  | scanned (hn : s.nreset = true) (w : Window) (b : Batch) (hw : s.window = some w) (hst : w.stage = .scan)
    (ha : s.someApplying = false) (hb : s.queue.find? Batch.unscanned = some b) : StepTo s (s.scanBatch w b)
  | scanEnds (hn : s.nreset = true) (w : Window) (hw : s.window = some w) (hst : w.stage = .scan)
    (ha : s.someApplying = false) : StepTo s { s with window := some { w with stage := .countdown } }
  | judged (hn : s.nreset = true) (w : Window) (b : Batch) (hw : s.window = some w)
    (hb : s.queue.find? Batch.isApplying = some b) : StepTo s (s.judged w.field b)
  | countdown (hn : s.nreset = true) (w : Window) (hw : s.window = some w) (ha : s.someApplying = false) :
    StepTo s { s with queue := s.queue.map (Batch.countedDown w.field), window := none }
  | sealTimeout (hn : s.nreset = true) (p : Port) (b : Batch) (hb : s.queue.find? (Batch.timeoutDue p) = some b) :
    StepTo s ({ s with
      queue := modifyFirst (Batch.timeoutDue p) (fun b => { b with wait := false, timedOut := none }) s.queue
    }.complete p .timeout (b.acceptance ++ [b.timedOut.getD 0]))
  | leaseTick (hn : s.nreset = true) : StepTo s (((s.tickLease 0).tickLease 1).tickLease 2)
  | leaseExpiry (hn : s.nreset = true) (p : Port) (he : s.expiryDue p = true) : StepTo s (s.beginLapse p .expired)

section
variable {s t : State}

theorem stepTo_nresetRelease (h : execNresetRelease s = .next t) : StepTo s t := by
  unfold execNresetRelease at h
  split at h <;> cases h
  · exact .stays
  · exact .release (by simp_all)

theorem stepTo_fieldStart (h : execFieldStart s = .next t) : StepTo s t := by
  unfold execFieldStart at h
  split at h <;> cases h
  · rename_i hc
    simp only [Bool.and_eq_true, beq_iff_eq, Option.isNone_iff_eq_none] at hc
    exact .fieldStart hc.1.1 hc.1.2 hc.2
  · exact .stays

theorem stepTo_waitFieldCompletion {p : Port} (h : execWaitFieldCompletion p s = .next t) : StepTo s t := by
  unfold execWaitFieldCompletion at h
  split at h
  · rename_i w hw
    split at h
    · rename_i field hd
      split at h <;> cases h
      · rename_i hn
        exact .waitEnds hn p w field hw hd
      · exact .stays
    · cases h
      exact .stays
  · cases h
    exact .stays

theorem stepTo_refInPulse (h : execRefInPulse s = .next t) : StepTo s t := by
  unfold execRefInPulse at h
  split at h <;> cases h
  · rename_i hc
    simp only [Bool.and_eq_true, bne_iff_ne] at hc
    exact .refIn hc.1 hc.2
  · exact .stays

theorem stepTo_pixelCompose {x y : Nat} {a b : Sample} (h : execPixelCompose x y a b s = .next t) : StepTo s t := by
  unfold execPixelCompose at h
  split at h <;> cases h
  · rename_i hc
    simp only [Bool.and_eq_true, decide_eq_true_eq] at hc
    obtain ⟨⟨⟨hn, ha⟩, hx⟩, hy⟩ := hc
    exact .pixel hn x y a b ha hx hy
  · exact .stays

theorem stepTo_blankStart (h : execBlankStart s = .next t) : StepTo s t := by
  unfold execBlankStart at h
  split at h <;> cases h
  · rename_i hc
    simp only [Bool.and_eq_true, beq_iff_eq] at hc
    exact .blankStart hc.1 hc.2
  · exact .stays

theorem stepTo_streamFaultReport (h : execStreamFaultReport s = .next t) : StepTo s t := by
  rw [← Host.Outcome.next.inj h]
  split
  · rename_i hc
    simp only [Bool.and_eq_true] at hc
    exact .faults hc.1
  · exact .stays

theorem stepTo_signatureCompare (h : execSignatureCompare s = .next t) : StepTo s t := by
  unfold execSignatureCompare at h
  rw [← State.compared] at h
  rw [← Host.Outcome.next.inj h]
  split
  · rename_i hc
    simp only [Bool.and_eq_true] at hc
    exact .compare hc.1
  · exact .stays

theorem stepTo_stageALapses (h : execStageALapses s = .next t) : StepTo s t := by
  rw [← Host.Outcome.next.inj h]
  split
  · rename_i w hw
    split
    · rename_i hc
      simp only [Bool.and_eq_true, beq_iff_eq] at hc
      exact .lapses hc.1 w hw hc.2
    · exact .stays
  · exact .stays

theorem stepTo_stageBRevocations (h : execStageBRevocations s = .next t) : StepTo s t := by
  rw [← Host.Outcome.next.inj h]
  split
  · rename_i w hw
    split
    · rename_i hc
      simp only [Bool.and_eq_true, beq_iff_eq] at hc
      exact .revocations hc.1 w hw hc.2
    · exact .stays
  · exact .stays

theorem stepTo_windowScanStep (h : execWindowScanStep s = .next t) : StepTo s t := by
  unfold execWindowScanStep at h
  split at h
  · rename_i w hw
    split at h
    · rename_i hc
      simp only [Bool.and_eq_true, beq_iff_eq, Bool.not_eq_true'] at hc
      obtain ⟨⟨hn, hst⟩, ha⟩ := hc
      split at h <;> cases h
      · rename_i b hb
        exact .scanned hn w b hw hst ha hb
      · exact .scanEnds hn w hw hst ha
    · cases h
      exact .stays
  · cases h
    exact .stays

theorem stepTo_batchValidation (h : execBatchValidation s = .next t) : StepTo s t := by
  unfold execBatchValidation at h
  split at h
  · rename_i w b hw hb
    split at h <;> cases h
    · rename_i hn
      exact .judged hn w b hw hb
    · exact .stays
  · cases h
    exact .stays
  · cases h
    exact .stays

theorem stepTo_waitCountdown (h : execWaitCountdown s = .next t) : StepTo s t := by
  unfold execWaitCountdown at h
  split at h
  · rename_i w hw
    split at h <;> cases h
    · rename_i hc
      simp only [Bool.and_eq_true, Bool.not_eq_true'] at hc
      exact .countdown hc.1.1 w hw hc.2
    · exact .stays
  · cases h
    exact .stays

theorem stepTo_sealTimeout {p : Port} (h : execSealTimeout p s = .next t) : StepTo s t := by
  unfold execSealTimeout at h
  split at h
  · rename_i b hb
    split at h <;> cases h
    · rename_i hn
      exact .sealTimeout hn p b hb
    · exact .stays
  · cases h
    exact .stays

theorem stepTo_leaseTick (h : execLeaseTick s = .next t) : StepTo s t := by
  unfold execLeaseTick at h
  split at h <;> cases h
  · rename_i hn
    exact .leaseTick hn
  · exact .stays

theorem stepTo_leaseExpiry {p : Port} (h : execLeaseExpiry p s = .next t) : StepTo s t := by
  unfold execLeaseExpiry at h
  split at h <;> cases h
  · rename_i hc
    simp only [Bool.and_eq_true] at hc
    exact .leaseExpiry hc.1 p hc.2
  · exact .stays

/-- A row that a port takes while NRESET is high. -/
theorem stepTo_port {p : Port} {u : State} (hp : PortPath p s 2 u) (h : (if s.nreset then u else s) = t) : StepTo s t := by
  split at h
  · exact h ▸ .port p hp
  · exact h ▸ .stays

/-- A frame command's row. -/
theorem stepTo_sendFrame {p : Port} {c : Command} {session : Byte} {payload : List Byte}
    (h : Host.Outcome.next (φ := Fault) (ρ := Refusal) (s.sendFrame p c session payload) = .next t) : StepTo s t := by
  cases h
  exact .port p (.sendFrame .refl c session payload)

/-- What a row can do. -/
theorem stepTo_of_exec {i : Instr} (h : exec i s = .next t) : StepTo s t := by
  cases i with
  | writeAddressMatch p address data =>
    exact stepTo_port (.more (.writeMatch (p := p) .refl address data)) (Host.Outcome.next.inj h)
  | frameTaken p => exact stepTo_port (.more (.endWrite (p := p) .refl)) (Host.Outcome.next.inj h)
  | readAddressMatch p address => exact stepTo_port (.more (.readMatch (p := p) .refl address)) (Host.Outcome.next.inj h)
  | readEnd p n => exact stepTo_port (.more (.more (.endRead (p := p) .refl n))) (Host.Outcome.next.inj h)
  | busHoldAbandon p => exact stepTo_port (.more (.more (.abandon (p := p) .refl))) (Host.Outcome.next.inj h)
  | stretchLimitExpiry p =>
    replace h : execStretchLimitExpiry p s = .next t := h
    unfold execStretchLimitExpiry at h
    split at h <;> cases h
    · rename_i hc
      simp only [Bool.and_eq_true, State.sclHeld, beq_iff_eq] at hc
      exact .port p (.more (.more (.setCpi .refl (Cpi.moves_pendingSent hc.2))))
    · exact .stays
  | nresetAssert addrsel supsel =>
    cases h
    exact .reset addrsel supsel
  | nresetRelease => exact stepTo_nresetRelease h
  | fieldStart => exact stepTo_fieldStart h
  | waitFieldCompletion p => exact stepTo_waitFieldCompletion h
  | refInPulse => exact stepTo_refInPulse h
  | pixelCompose x y a b => exact stepTo_pixelCompose h
  | blankStart => exact stepTo_blankStart h
  | streamFaultReport => exact stepTo_streamFaultReport h
  | signatureCompare => exact stepTo_signatureCompare h
  | stageALapses => exact stepTo_stageALapses h
  | stageBRevocations => exact stepTo_stageBRevocations h
  | windowScanStep => exact stepTo_windowScanStep h
  | batchValidation => exact stepTo_batchValidation h
  | waitCountdown => exact stepTo_waitCountdown h
  | sealTimeout p => exact stepTo_sealTimeout h
  | leaseTick => exact stepTo_leaseTick h
  | leaseExpiry p => exact stepTo_leaseExpiry h
  | _ => exact stepTo_sendFrame h

/-- The state with the front command taken off the commands that wait. -/
def State.fronted (s : State) : State := { s with pending := s.pending.tail }

/-- What a step can do: it is an idle step, or a row run with the queue's rest. -/
theorem stepTo_of_step (h : step s = .next t) : StepTo s.fronted t := by
  cases hp : s.pending with
  | nil =>
    have hs : s.fronted = s := by
      unfold State.fronted
      rw [hp, List.tail_nil, ← hp]
    have ht : s.tick = t := by simpa [step, hp] using h
    rw [hs]
    subst ht
    unfold State.tick
    split
    · exact .stays
    · rename_i hc
      simp only [Bool.or_eq_true, Bool.not_eq_true', not_or, Bool.not_eq_true, Bool.not_eq_false] at hc
      exact .idle hc.1 hc.2
  | cons i rest =>
    have hs : s.fronted = { s with pending := rest } := by
      unfold State.fronted
      rw [hp, List.tail_cons]
    rw [hs]
    exact stepTo_of_exec (i := i) (by simpa [step, hp] using h)

end

end Sys2Proof.Machine
end

section
/-! What the internal operations leave as it was: what the part tells its ports (`Told`), the beginning of a lapse, the
work of a blanking; and the two statements that every row keeps the waiting commands and the order of the queue. -/

namespace Sys2Proof.Machine

/-! ### What the part tells its ports -/

/-- The states reached from s by completions, posts and history entries. -/
inductive Told (s : State) : State → Prop
  | refl : Told s s
  | complete {t : State} (h : Told s t) (p : Port) (k : Completion) (out : List Byte) : Told s (t.complete p k out)
  | post {t : State} (h : Told s t) (p : Port) (n : Notice) : Told s (t.post p n)
  | record {t : State} (h : Told s t) (p : Port) (e : HistoryEntry) : Told s (t.record p e)

namespace Told

variable {s t : State}

theorem keeps {P : State → Prop} (h : Told s t) (hs : P s) (complete : ∀ s p k out, P s → P (s.complete p k out))
    (post : ∀ s p n, P s → P (s.post p n)) (record : ∀ s p e, P s → P (s.record p e)) : P t := by
  induction h with
  | refl => exact hs
  | complete _ p k out ih => exact complete _ p k out ih
  | post _ p n ih => exact post _ p n ih
  | record _ p e ih => exact record _ p e ih

theorem trans {u : State} (h : Told s t) (h' : Told t u) : Told s u :=
  h'.keeps (P := Told s) h (fun _ p k out ih => .complete ih p k out) (fun _ p n ih => .post ih p n)
    (fun _ p e ih => .record ih p e)

/-- CPIs, sessions, Notice Queues and histories apart, nothing changes. -/
theorem frame (h : Told s t) : ∃ c x v e, t = { s with cpis := c, sessions := x, notices := v, histories := e } := by
  refine h.keeps (P := fun t => ∃ c x v e, t = { s with cpis := c, sessions := x, notices := v, histories := e })
    ⟨_, _, _, _, rfl⟩ ?_ ?_ ?_
  · rintro _ p k out ⟨c, x, v, e, rfl⟩
    rw [State.complete_eq]
    split <;> exact ⟨_, _, _, _, rfl⟩
  · rintro _ p n ⟨c, x, v, e, rfl⟩
    rw [State.post_eq]
    exact ⟨_, _, _, _, rfl⟩
  · rintro _ p e' ⟨c, x, v, e, rfl⟩
    exact ⟨_, _, _, _, rfl⟩

theorem queue (h : Told s t) : t.queue = s.queue := by obtain ⟨c, x, v, e, rfl⟩ := h.frame; rfl
theorem live (h : Told s t) : t.live = s.live := by obtain ⟨c, x, v, e, rfl⟩ := h.frame; rfl
theorem timing (h : Told s t) : t.timing = s.timing := by obtain ⟨c, x, v, e, rfl⟩ := h.frame; rfl
theorem staging (h : Told s t) : t.staging = s.staging := by obtain ⟨c, x, v, e, rfl⟩ := h.frame; rfl
theorem pending (h : Told s t) : t.pending = s.pending := by obtain ⟨c, x, v, e, rfl⟩ := h.frame; rfl
theorem monitor (h : Told s t) : t.monitor = s.monitor := by obtain ⟨c, x, v, e, rfl⟩ := h.frame; rfl
theorem planeClaims (h : Told s t) : t.planeClaims = s.planeClaims := by obtain ⟨c, x, v, e, rfl⟩ := h.frame; rfl

/-- A completion may restart a lease; in which state a session is does not change. -/
theorem session_state (h : Told s t) (p : Port) : (t.session p).state = (s.session p).state := by
  refine h.keeps (P := fun t => (t.session p).state = (s.session p).state) rfl ?_ ?_ ?_
  · intro t q k out ih
    rw [State.complete_eq, ← ih]
    split
    · rw [State.setSession_session, State.setCpi_session]
      split
      · rename_i hq
        subst hq
        split <;> rfl
      · rfl
    · rfl
  · intro t q n ih
    rw [State.post_eq]
    exact ih
  · intro t q e ih
    exact ih

end Told

section
variable (s : State)

theorem told_postAttached (n : Notice) (p : Port) : Told s (s.postAttached n p) := by
  unfold State.postAttached
  split
  · exact .post .refl p n
  · exact .refl

theorem told_postSupervisor (n : Notice) : Told s (s.postSupervisor n) := by
  unfold State.postSupervisor
  split
  · exact .post .refl _ n
  · exact .refl

theorem told_foldl {α : Type} (f : State → α → State) (h : ∀ s a, Told s (f s a)) (l : List α) : Told s (l.foldl f s) := by
  induction l generalizing s with
  | nil => exact .refl
  | cons a rest ih => exact (h s a).trans (ih (f s a))

theorem told_overdueTimeout (b : Batch) : Told s (s.overdueTimeout b) := by
  unfold State.overdueTimeout
  split
  · split
    · exact .complete .refl _ _ _
    · exact .refl
  · exact .refl

theorem told_reportApplied (field : Byte) (b : Batch) (clamped : Bool) : Told s (s.reportApplied field b clamped) := by
  have h := Told.record (told_overdueTimeout s b) b.port { number := b.number, outcome := .applied clamped, field }
  unfold State.reportApplied
  simp only
  split
  · exact .complete h _ _ _
  · exact .post h _ _

theorem told_reportRejected (field : Byte) (b : Batch) (reason : Reason) (index : Nat) (r : Option Resource) :
    Told s (s.reportRejected field b reason index r) := by
  have h := Told.record (told_overdueTimeout s b) b.port
    { number := b.number, outcome := .rejected reason index, field }
  unfold State.reportRejected
  simp only
  split
  · exact .complete h _ _ _
  · exact .post h _ _

theorem told_reportStream (stream : Stream) (set : Vector (Option Plane) 3) (ports : List Port) :
    Told s (s.reportStream stream set ports) := by
  refine told_foldl s _ (fun t p => ?_) ports
  split
  · exact told_postAttached t _ p
  · exact .refl

theorem told_faultsReported : Told s s.faultsReported :=
  (told_reportStream s .a _ allPorts).trans (told_reportStream _ .b _ allPorts)

theorem told_postLimit (owner : Port) (n : Notice) : Told s (s.postLimit owner n) := by
  have h : Told s (s.post owner n) := .post .refl owner n
  unfold State.postLimit
  simp only
  split
  · exact h
  · exact h.trans (told_postSupervisor _ n)

theorem told_postComparison (q : Plane) (r : GuardRecord) : Told s (s.postComparison q r) := by
  unfold State.postComparison
  split
  · exact .refl
  · split
    · simp only
      split <;> split
      · exact (Told.post .refl _ _).trans (told_postLimit _ _ _)
      · exact told_postLimit _ _ _
      · exact .post .refl _ _
      · exact .refl
    · exact .refl

/-- The end of a command in flight takes the port's waiter away, if it has one, and completes the command. -/
theorem told_endInFlight (p : Port) (waiting : Option Batch) :
    Told s (s.endInFlight p waiting) ∨ Told (s.setWaiter p none) (s.endInFlight p waiting) := by
  unfold State.endInFlight State.endWaitField State.endSeal
  split
  · right
    split <;> exact .complete .refl _ _ _
  · left
    split <;> exact .complete .refl _ _ _
  · exact .inl .refl

end

/-! ### The beginning of a lapse -/

/-- The state as a lapse has begun, before the command in flight ends (R110). -/
def State.lapseBegun (s : State) (p : Port) (cause : LapseCause) : State :=
  ((s.setSession p
      { s.session p with
        state := .lapsing, cause, purged := s.queue.countP (Batch.purgedBy p), inLapseSet := true, remaining := 0
      }).setStaged p .empty).purge p

theorem State.beginLapse_eq (s : State) (p : Port) (cause : LapseCause) :
    s.beginLapse p cause = (s.lapseBegun p cause).endInFlight p (s.queue.find? (Batch.waitsFor p)) := rfl

/-- A lapse that begins empties the Staged List, purges the queue, and touches beside the CPIs, the sessions, what the
ports are told and the waiters alone. -/
theorem State.beginLapse_frame (s : State) (p : Port) (cause : LapseCause) :
    ∃ c x v e w, s.beginLapse p cause =
      { (s.setStaged p .empty).purge p with
        cpis := c, sessions := x, notices := v, histories := e, timing := { s.timing with waiters := w } } := by
  rw [State.beginLapse_eq]
  rcases told_endInFlight (s.lapseBegun p cause) p (s.queue.find? (Batch.waitsFor p)) with h | h
  · obtain ⟨c, x, v, e, h⟩ := h.frame
    exact ⟨c, x, v, e, s.timing.waiters, h⟩
  · obtain ⟨c, x, v, e, h⟩ := h.frame
    exact ⟨c, x, v, e, _, h⟩

/-- A tick of a lease begins a lapse, lowers a lease, or does nothing. -/
theorem State.tickLease_cases (s : State) (p : Port) :
    (s.expiryDue p = true ∧ s.tickLease p = s.beginLapse p .expired)
    ∨ (s.expiryDue p = false ∧ s.leaseRuns p = true
      ∧ s.tickLease p = s.setSession p { s.session p with remaining := (s.session p).remaining - 1 })
    ∨ s.tickLease p = s := by
  unfold State.tickLease
  split
  · exact .inl ⟨‹_›, rfl⟩
  · split
    · exact .inr (.inl ⟨by simp_all, ‹_›, rfl⟩)
    · exact .inr (.inr rfl)

theorem State.attached_of_expiryDue {s : State} {p : Port} (h : s.expiryDue p = true) :
    (s.session p).state = .attached := by
  simp only [State.expiryDue, State.leaseRuns, State.isAttached, Bool.and_eq_true, beq_iff_eq] at h
  exact h.1.1.1

/-! ### The work of a blanking -/

/-- A property that every element of a run keeps holds after the run. -/
theorem foldl_keeps {α : Type} {P : State → Prop} {f : State → α → State} (h : ∀ s a, P s → P (f s a)) (l : List α)
    {s : State} (hs : P s) : P (l.foldl f s) := by
  induction l generalizing s with
  | nil => exact hs
  | cons a rest ih => exact ih (h s a hs)

/-- The completion of a lapse writes planes, guards, claims and sessions, and tells the ports. -/
theorem State.completeLapse_frame (s : State) (field : Byte) (p : Port) :
    ∃ pl g pc bc x v, s.completeLapse field p =
      { s with
        live := { s.live with planes := pl, guards := g }, planeClaims := pc, bankClaims := bc, sessions := x
        notices := v } := by
  have htake : ∀ (l : List Plane) (live : Live), ∃ pl g, takeDownPlanes s p live l = { live with planes := pl, guards := g } := by
    intro l
    induction l with
    | nil => exact fun live => ⟨live.planes, live.guards, rfl⟩
    | cons q rest ih =>
      intro live
      unfold takeDownPlanes
      split
      · obtain ⟨pl, g, h⟩ := ih (live.takeDown q)
        exact ⟨pl, g, h⟩
      · exact ih live
  unfold State.completeLapse
  split
  · obtain ⟨pl, g, hl⟩ := htake allPlanes s.live
    have hpost : ∀ t n q, ∃ v, State.post t q n = { t with notices := v } := fun t n q => t.sameButQueues_post q n
    have hsup : ∀ t n, ∃ v, State.postSupervisor t n = { t with notices := v } := fun t n => t.sameButQueues_postSupervisor n
    simp only [State.lapseClaims, hl, State.lapseSession]
    split
    · obtain ⟨v, h⟩ := hpost _ _ p
      rw [h]
      exact ⟨_, _, _, _, _, _, rfl⟩
    · obtain ⟨v, h⟩ := hsup _ _
      rw [h]
      obtain ⟨v', h'⟩ := hpost _ _ p
      rw [h']
      exact ⟨_, _, _, _, _, _, rfl⟩
  · exact ⟨_, _, _, _, _, _, rfl⟩

/-- The revocation of a plane writes its record, its guard and its claim, and tells its former owner. -/
theorem State.revokePlane_frame (field : Byte) (s : State) (q : Plane) :
    ∃ pl g pc v, State.revokePlane field s q =
      { s with live := { s.live with planes := pl, guards := g }, planeClaims := pc, notices := v } := by
  unfold State.revokePlane
  split
  · rw [State.post_eq]
    exact ⟨_, _, _, _, rfl⟩
  · exact ⟨_, _, _, _, rfl⟩
  · exact ⟨_, _, _, _, rfl⟩

/-- The revocation of a bank writes the palette names of planes and its claim, and tells its former owner. -/
theorem State.revokeBank_frame (field : Byte) (s : State) (b : Bank) :
    ∃ pl bc v, State.revokeBank field s b =
      { s with live := { s.live with planes := pl }, bankClaims := bc, notices := v } := by
  unfold State.revokeBank
  split
  · rw [State.post_eq]
    exact ⟨_, _, _, rfl⟩
  · exact ⟨_, _, _, rfl⟩
  · exact ⟨_, _, _, rfl⟩

theorem State.sameButQueues_postLimit (s : State) (owner : Port) (n : Notice) : s.SameButQueues (s.postLimit owner n) := by
  unfold State.postLimit
  simp only
  split
  · exact s.sameButQueues_post owner n
  · exact (s.sameButQueues_post owner n).trans (State.sameButQueues_postSupervisor _ n)

theorem State.sameButQueues_postComparison (s : State) (q : Plane) (r : GuardRecord) :
    s.SameButQueues (s.postComparison q r) := by
  unfold State.postComparison
  split
  · exact .refl s
  · split
    · simp only
      split <;> split
      · exact (s.sameButQueues_post _ _).trans (State.sameButQueues_postLimit _ _ _)
      · exact s.sameButQueues_postLimit _ _
      · exact s.sameButQueues_post _ _
      · exact .refl s
    · exact .refl s

/-- A comparison writes the guard record, and posts. -/
theorem State.comparePlane_frame (s : State) (q : Plane) :
    ∃ g v, s.comparePlane q = { s with live := { s.live with guards := g }, notices := v } := by
  unfold State.comparePlane
  split
  · exact ⟨_, _, rfl⟩
  · obtain ⟨v, h⟩ := State.sameButQueues_postComparison _ q _
    rw [h]
    exact ⟨_, _, rfl⟩

/-- The lapses write planes, guards, claims and sessions, and tell the ports. -/
theorem State.lapsesCompleted_frame (s : State) (field : Byte) :
    ∃ pl g pc bc x v, s.lapsesCompleted field =
      { s with
        live := { s.live with planes := pl, guards := g }, planeClaims := pc, bankClaims := bc, sessions := x
        notices := v } := by
  unfold State.lapsesCompleted
  obtain ⟨_, _, _, _, _, _, h0⟩ := s.completeLapse_frame field 0
  obtain ⟨_, _, _, _, _, _, h1⟩ := (s.completeLapse field 0).completeLapse_frame field 1
  obtain ⟨_, _, _, _, _, _, h2⟩ := ((s.completeLapse field 0).completeLapse field 1).completeLapse_frame field 2
  rw [h2, h1, h0]
  exact ⟨_, _, _, _, _, _, rfl⟩

/-- The revocations write planes, guards and claims, and tell the former owners. -/
theorem State.revocationsCompleted_frame (s : State) (field : Byte) :
    ∃ pl g pc bc v, s.revocationsCompleted field =
      { s with live := { s.live with planes := pl, guards := g }, planeClaims := pc, bankClaims := bc, notices := v } := by
  unfold State.revocationsCompleted
  have hplanes := foldl_keeps (s := s) (f := State.revokePlane field)
    (P := fun t => ∃ pl g pc bc v, t =
      { s with live := { s.live with planes := pl, guards := g }, planeClaims := pc, bankClaims := bc, notices := v })
    (by
      rintro _ q ⟨pl, g, pc, bc, v, rfl⟩
      obtain ⟨_, _, _, _, h⟩ := State.revokePlane_frame field _ q
      rw [h]
      exact ⟨_, _, _, _, _, rfl⟩) allPlanes ⟨_, _, _, _, _, rfl⟩
  refine foldl_keeps (f := State.revokeBank field)
    (P := fun t => ∃ pl g pc bc v, t =
      { s with live := { s.live with planes := pl, guards := g }, planeClaims := pc, bankClaims := bc, notices := v })
    ?_ allBanks hplanes
  rintro _ b ⟨pl, g, pc, bc, v, rfl⟩
  obtain ⟨_, _, _, h⟩ := State.revokeBank_frame field _ b
  rw [h]
  exact ⟨_, _, _, _, _, rfl⟩

/-- The comparisons write the guard records, and post. -/
theorem State.compared_frame (s : State) :
    ∃ g v, s.compared = { s with live := { s.live with guards := g }, notices := v } := by
  unfold State.compared
  refine foldl_keeps (f := State.comparePlane)
    (P := fun t => ∃ g v, t = { s with live := { s.live with guards := g }, notices := v }) ?_ allPlanes ⟨_, _, rfl⟩
  rintro _ q ⟨g, v, rfl⟩
  obtain ⟨_, _, h⟩ := State.comparePlane_frame _ q
  rw [h]
  exact ⟨_, _, rfl⟩

/-- The end of the blanking at the Timing Generator, before the supervisor is told (R39, R43 to R45). -/
def State.blankingEnded (s : State) : State :=
  { s with
    timing :=
      { s.timing with
        field := s.timing.field + 1, refState := s.timing.endBlanking.1, pendingRef := s.timing.endBlanking.2.1
        lastBlanking := s.timing.blankingEnd s.live.scan } }

theorem told_endBlanking (s : State) : Told s.blankingEnded s.endBlanking := by
  unfold State.endBlanking
  simp only
  split
  · exact told_postSupervisor s.blankingEnded _
  · exact .refl

/-- The pending Scan Record taken, with what that makes of the reference, before the ports are told (R46). -/
def State.scanTaken (s : State) : State :=
  { s with
    live := { s.live with scan := s.live.pendingScan, pendingMark := false }
    timing :=
      { s.timing with
        refState := (followTaken s.live.scan s.live.pendingScan (s.timing.refState, s.timing.pendingRef)).1
        pendingRef := (followTaken s.live.scan s.live.pendingScan (s.timing.refState, s.timing.pendingRef)).2 } }

theorem told_takeScan {s : State} (h : s.live.pendingMark = true) : Told s.scanTaken s.takeScan := by
  unfold State.takeScan
  rw [if_pos h]
  exact told_foldl s.scanTaken _ (fun t p => told_postAttached t _ p) allPorts

theorem State.takeScan_of_not_pending {s : State} (h : s.live.pendingMark = false) : s.takeScan = s := by
  unfold State.takeScan
  rw [h]
  rfl

theorem State.sameButQueues_endBlanking (s : State) : s.blankingEnded.SameButQueues s.endBlanking := by
  unfold State.endBlanking
  simp only
  split
  · exact s.blankingEnded.sameButQueues_postSupervisor _
  · exact .refl _

theorem State.sameButQueues_takeScan {s : State} (h : s.live.pendingMark = true) : s.scanTaken.SameButQueues s.takeScan := by
  unfold State.takeScan
  rw [if_pos h]
  exact s.scanTaken.sameButQueues_foldl _ (fun t p => t.sameButQueues_postAttached _ p) allPorts

/-- A Field Start before the snapshot is taken: the blanking has ended, a new Scan Record may have been taken, and notices
have been posted. -/
theorem State.takeScan_endBlanking_frame (s : State) :
    ∃ v, s.endBlanking.takeScan =
      { if s.live.pendingMark then s.blankingEnded.scanTaken else s.blankingEnded with notices := v } := by
  obtain ⟨v, hframe⟩ := s.sameButQueues_endBlanking
  have hmark : s.endBlanking.live.pendingMark = s.live.pendingMark := by
    rw [hframe]
    rfl
  cases hm : s.live.pendingMark with
  | false =>
    rw [State.takeScan_of_not_pending (hmark.trans hm)]
    exact ⟨v, hframe⟩
  | true =>
    obtain ⟨v', h'⟩ := State.sameButQueues_takeScan (hmark.trans hm)
    rw [hframe] at h' ⊢
    exact ⟨v', h'⟩

/-- The scan writes the queue and the window, and tells the ports. -/
theorem State.scanBatch_frame (s : State) (w : Window) (b : Batch) :
    ∃ q w' c x v e, s.scanBatch w b =
      { s with queue := q, window := w', cpis := c, sessions := x, notices := v, histories := e } := by
  unfold State.scanBatch
  split
  case h_4 =>
    obtain ⟨c, x, v, e, h⟩ :=
      (told_reportRejected { s with queue := s.queue.eraseP Batch.unscanned } w.field b .tooLarge 0 none).frame
    rw [h]
    exact ⟨_, _, _, _, _, _, rfl⟩
  all_goals exact ⟨_, _, _, _, _, _, rfl⟩

/-- The judged batch is gone, its working copy live or dropped, and its port told. -/
theorem State.judged_cases (s : State) (field : Byte) (b : Batch) :
    (validate s b.port b.edits (workOf s.live b.edits) = .pass
      ∧ Told { s with queue := s.queue.eraseP Batch.isApplying, live := (workOf s.live b.edits).live } (s.judged field b))
    ∨ Told { s with queue := s.queue.eraseP Batch.isApplying } (s.judged field b) := by
  unfold State.judged
  simp only
  split
  · exact .inl ⟨‹_›, told_reportApplied _ _ _ _⟩
  · exact .inr (told_reportRejected _ _ _ _ _ _)

/-! ### The commands that wait -/

theorem State.purge_pending (s : State) (p : Port) : (s.purge p).pending = s.pending := rfl

theorem State.beginLapse_pending (s : State) (p : Port) (cause : LapseCause) :
    (s.beginLapse p cause).pending = s.pending := by
  obtain ⟨c, x, v, e, w, h⟩ := s.beginLapse_frame p cause
  rw [h]
  rfl

theorem State.tickLease_pending (s : State) (p : Port) : (s.tickLease p).pending = s.pending := by
  rcases s.tickLease_cases p with ⟨-, h⟩ | ⟨-, -, h⟩ | h <;> rw [h]
  · exact s.beginLapse_pending p .expired
  · rfl

theorem Acted.pending {p : Port} {s : State} {r : Reply × State} (h : Acted p s r) : r.2.pending = s.pending := by
  cases h with
  | lapsed k out q cause => exact s.beginLapse_pending q cause
  | claimed k out r => cases r <;> rfl
  | released k out r => cases r <;> rfl
  | revoked k out r => cases r <;> rfl
  | _ => rfl

/-- No step but the taking of the front command touches the commands that wait. -/
theorem StepTo.pending {s t : State} (h : StepTo s t) : t.pending = s.pending := by
  cases h with
  | stays => rfl
  | port p h =>
    refine h.keeps (P := fun t => t.pending = s.pending) rfl (fun _ _ h => h) (fun u h => ?_) fun _ _ h ha =>
      ha.pending.trans h
    rw [State.restartLease_eq]
    exact h
  | idle => rw [State.edge_frame]
  | reset => rfl
  | release => rfl
  | fieldStart =>
    obtain ⟨v, h⟩ :=
      State.takeScan_endBlanking_frame { s with compose := { s.compose with pipe := .lineEnd true } }
    rw [h]
    show (if _ then _ else _ : State).pending = _
    split <;> rfl
  | waitEnds _ p w field => exact (Told.complete (.refl (s := s.setWaiter p none)) p .ok [field]).pending
  | refIn => rfl
  | pixel _ x y => rw [State.edge_frame]; rfl
  | blankStart => rfl
  | faults => exact (told_faultsReported s).pending
  | compare =>
    obtain ⟨g, v, h⟩ := s.compared_frame
    rw [h]
  | lapses _ w =>
    obtain ⟨pl, g, pc, bc, x, v, h⟩ := s.lapsesCompleted_frame w.field
    rw [h]
  | revocations _ w =>
    obtain ⟨pl, g, pc, bc, v, h⟩ := s.revocationsCompleted_frame w.field
    rw [h]
  | scanned _ w b =>
    obtain ⟨q, w', c, x, v, e, h⟩ := s.scanBatch_frame w b
    rw [h]
  | scanEnds => rfl
  | judged _ w b =>
    rcases s.judged_cases w.field b with ⟨-, h⟩ | h <;> exact h.pending
  | countdown => rfl
  | sealTimeout _ p b =>
    exact (Told.complete (.refl (s := { s with queue := modifyFirst (Batch.timeoutDue p) _ s.queue })) p _ _).pending
  | leaseTick => simp only [State.tickLease_pending]
  | leaseExpiry _ p => exact s.beginLapse_pending p .expired

/-- Every row answers a next state. -/
theorem exec_next (c : Instr) (s : State) : ∃ t, exec c s = .next t := by
  cases c <;> exact ⟨_, rfl⟩

/-- Settles O3: no arm of exec stops, and no outcome of a row touches the commands that wait. -/
theorem everyCommandAnswersNextAndKeepsTheQueue : Obligations.EveryCommandAnswersNextAndKeepsTheQueue := by
  unfold Obligations.EveryCommandAnswersNextAndKeepsTheQueue
  intro c s
  obtain ⟨t, ht⟩ := exec_next c s
  exact ⟨t, ht, (stepTo_of_exec ht).pending⟩

end Sys2Proof.Machine
end

section
/-! The order of the Commit Queue (R75), and the capacities (R52, R75, R77, R150). -/

namespace Sys2Proof.Machine

/-! ### What a batch keeps while it stands in the queue -/

/-- The port, session, number and edits of a batch, which it keeps while it stands in the queue. -/
def Batch.key (b : Batch) : Port × Byte × Byte × List Edit := (b.port, b.session, b.number, b.edits)

/-- The batches of the second queue stand in the first, in the same order. -/
def Shrinks (queue queue' : List Batch) : Prop := (queue'.map Batch.key).Sublist (queue.map Batch.key)

namespace Shrinks

variable {q q' q'' : List Batch}

theorem refl (q : List Batch) : Shrinks q q := List.Sublist.refl _

theorem trans (h : Shrinks q q') (h' : Shrinks q' q'') : Shrinks q q'' := List.Sublist.trans h' h

theorem of_sublist (h : q'.Sublist q) : Shrinks q q' := h.map _

theorem of_keys (h : q'.map Batch.key = q.map Batch.key) : Shrinks q q' := by
  unfold Shrinks
  exact h ▸ List.Sublist.refl _

theorem map {f : Batch → Batch} (hf : ∀ b, (f b).key = b.key) (q : List Batch) : Shrinks q (q.map f) := by
  refine of_keys ?_
  rw [List.map_map]
  exact List.map_congr_left fun b _ => hf b

theorem modifyFirst (f : Batch → Bool) {g : Batch → Batch} (hg : ∀ b, (g b).key = b.key) (q : List Batch) :
    Shrinks q (modifyFirst f g q) := by
  refine of_keys ?_
  induction q with
  | nil => rfl
  | cons b rest ih =>
    unfold Machine.modifyFirst
    split
    · rw [List.map_cons, List.map_cons, hg]
    · rw [List.map_cons, List.map_cons, ih]

theorem length_le (h : Shrinks q q') : q'.length ≤ q.length := by
  simpa using List.Sublist.length_le h

theorem append (h : Shrinks q q') (r : List Batch) : Shrinks (q ++ r) (q' ++ r) := by
  simpa [Shrinks] using List.Sublist.append h (List.Sublist.refl (r.map Batch.key))

end Shrinks

/-- The queue after a purge: the Queued batches of the port are gone (R98). -/
theorem State.purge_shrinks (s : State) (p : Port) : Shrinks s.queue (s.purge p).queue := by
  refine (Shrinks.of_sublist List.filter_sublist).trans (Shrinks.map (fun b => ?_) _)
  split <;> rfl

theorem State.beginLapse_shrinks (s : State) (p : Port) (cause : LapseCause) :
    Shrinks s.queue (s.beginLapse p cause).queue := by
  obtain ⟨c, x, v, e, w, h⟩ := s.beginLapse_frame p cause
  rw [h]
  exact State.purge_shrinks _ p

theorem State.tickLease_shrinks (s : State) (p : Port) : Shrinks s.queue (s.tickLease p).queue := by
  rcases s.tickLease_cases p with ⟨-, h⟩ | ⟨-, -, h⟩ | h <;> rw [h]
  · exact s.beginLapse_shrinks p .expired
  · exact .refl _
  · exact .refl _

theorem Batch.countedDown_key (field : Byte) (b : Batch) : (b.countedDown field).key = b.key := by
  unfold Batch.countedDown
  simp only
  split <;> rfl

theorem Batch.joined_key (field : Byte) (b : Batch) : (b.joined field).key = b.key := by
  unfold Batch.joined
  split <;> rfl

theorem markScanned_shrinks (queue : List Batch) : Shrinks queue (markScanned queue) :=
  .modifyFirst _ (by exact fun _ => rfl) queue

theorem markApplying_shrinks (queue : List Batch) : Shrinks queue (markApplying queue) :=
  .modifyFirst _ (by exact fun _ => rfl) queue

theorem State.scanBatch_shrinks (s : State) (w : Window) (b : Batch) : Shrinks s.queue (s.scanBatch w b).queue := by
  unfold State.scanBatch
  split
  · exact markScanned_shrinks _
  · exact markScanned_shrinks _
  · exact markScanned_shrinks _
  · rw [(told_reportRejected _ w.field b .tooLarge 0 none).queue]
    exact .of_sublist List.eraseP_sublist
  · exact .refl _
  · exact markApplying_shrinks _

theorem State.judged_shrinks (s : State) (field : Byte) (b : Batch) : Shrinks s.queue (s.judged field b).queue := by
  rcases s.judged_cases field b with ⟨-, h⟩ | h <;> rw [h.queue] <;> exact .of_sublist List.eraseP_sublist

/-- Beside the commands of the ports no step brings a batch into the queue or changes the order of those in it. -/
theorem StepTo.shrinks {s t : State} (h : StepTo s t) : (∃ p, PortPath p s 2 t) ∨ Shrinks s.queue t.queue := by
  cases h with
  | port p h => exact .inl ⟨p, h⟩
  | stays => exact .inr (.refl _)
  | idle =>
    right
    rw [State.edge_frame]
    exact .refl _
  | reset => exact .inr (List.nil_sublist _)
  | release => exact .inr (.refl _)
  | fieldStart =>
    right
    obtain ⟨v, h⟩ :=
      State.takeScan_endBlanking_frame { s with compose := { s.compose with pipe := .lineEnd true } }
    rw [h]
    show Shrinks s.queue (if _ then _ else _ : State).queue
    split <;> exact .refl _
  | waitEnds _ p w field =>
    right
    rw [(Told.complete (.refl (s := s.setWaiter p none)) p .ok [field]).queue]
    exact .refl _
  | refIn => exact .inr (.refl _)
  | pixel _ x y =>
    right
    rw [State.edge_frame]
    exact .refl _
  | blankStart => exact .inr (.map (Batch.joined_key _) _)
  | faults =>
    right
    show Shrinks s.queue s.faultsReported.queue
    rw [(told_faultsReported s).queue]
    exact .refl _
  | compare =>
    right
    obtain ⟨g, v, h⟩ := s.compared_frame
    rw [h]
    exact .refl _
  | lapses _ w =>
    right
    obtain ⟨pl, g, pc, bc, x, v, h⟩ := s.lapsesCompleted_frame w.field
    rw [h]
    exact .refl _
  | revocations _ w =>
    right
    obtain ⟨pl, g, pc, bc, v, h⟩ := s.revocationsCompleted_frame w.field
    rw [h]
    exact .refl _
  | scanned _ w b => exact .inr (s.scanBatch_shrinks w b)
  | scanEnds => exact .inr (.refl _)
  | judged _ w b => exact .inr (s.judged_shrinks w.field b)
  | countdown _ w => exact .inr (.map (Batch.countedDown_key _) _)
  | sealTimeout _ p b =>
    right
    rw [(Told.complete .refl p _ _).queue]
    exact .modifyFirst _ (by exact fun _ => rfl) _
  | leaseTick =>
    exact .inr ((s.tickLease_shrinks 0).trans ((State.tickLease_shrinks _ 1).trans (State.tickLease_shrinks _ 2)))
  | leaseExpiry _ p => exact .inr (s.beginLapse_shrinks p .expired)

/-- A command brings a batch only by sealing a Staged List that is not empty, which it empties (R72). -/
theorem Acted.shrinks {p : Port} {s : State} {r : Reply × State} (h : Acted p s r) :
    Shrinks s.queue r.2.queue
    ∨ ((s.staged p).list ≠ [] ∧ (r.2.staged p).list = [] ∧ ∃ b, r.2.queue = s.queue ++ [b]) := by
  cases h with
  | lapsed k out q cause => exact .inl (s.beginLapse_shrinks q cause)
  | claimed k out r => cases r <;> exact .inl (.refl _)
  | released k out r => cases r <;> exact .inl (.refl _)
  | revoked k out r => cases r <;> exact .inl (.refl _)
  | sealed reply a hs hne => exact .inr ⟨hne, by simp [State.sealed, State.staged, State.setStaged, State.setNextBatch, Staging.empty], _, rfl⟩
  | withdrawn k out n b => exact .inl (.of_sublist List.eraseP_sublist)
  | _ => exact .inl (.refl _)

/-- The end of a command writes its port's CPI and session. -/
theorem State.finish_frame (s : State) (p : Port) (code : Byte) (r : Reply) :
    ∃ c x, s.finish p code r = { s with cpis := c, sessions := x } := by
  unfold State.finish
  split
  · rw [State.restartLease_eq]
    exact ⟨_, _, rfl⟩
  · exact ⟨_, _, rfl⟩

/-- What may have happened to the queue, and to port p's Staged List, after at most n commands of the port. -/
def QueueAfter (p : Port) (s : State) (n : Nat) (t : State) : Prop :=
  (n = 0 → t.queue = s.queue ∧ t.staged p = s.staged p)
  ∧ (n ≤ 1 → Shrinks s.queue t.queue ∨ ((t.staged p).list = [] ∧ ∃ b, Shrinks (s.queue ++ [b]) t.queue))
  ∧ (n ≤ 2 → Shrinks s.queue t.queue ∨ ∃ b, Shrinks (s.queue ++ [b]) t.queue)

theorem PortPath.queueAfter {p : Port} {s t : State} {n : Nat} (h : PortPath p s n t) : QueueAfter p s n t := by
  induction h with
  | refl => exact ⟨fun _ => ⟨rfl, rfl⟩, fun _ => .inl (.refl _), fun _ => .inl (.refl _)⟩
  | more h ih =>
    obtain ⟨-, ih1, ih2⟩ := ih
    exact ⟨fun h => by omega, fun h => ih1 (by omega), fun h => ih2 (by omega)⟩
  | setCpi h hc ih => exact ih
  | @command n t h hb code r ha ih =>
    obtain ⟨ih0, ih1, -⟩ := ih
    obtain ⟨c, x, hf⟩ := r.2.finish_frame p code r.1
    rw [hf]
    refine ⟨fun h => by omega, fun hn => ?_, fun hn => ?_⟩
    · obtain ⟨hq, hp⟩ := ih0 (by omega)
      rw [← hq]
      rcases ha.shrinks with h | ⟨-, he, b, hb⟩
      · exact .inl h
      · exact .inr ⟨he, b, hb ▸ .refl _⟩
    · rcases ha.shrinks with h | ⟨hne, -, b, hb⟩
      · rcases ih1 (by omega) with h' | ⟨-, b, h'⟩
        · exact .inl (h'.trans h)
        · exact .inr ⟨b, h'.trans h⟩
      · rcases ih1 (by omega) with h' | ⟨he, -⟩
        · exact .inr ⟨b, hb ▸ h'.append [b]⟩
        · exact absurd he hne

/-- Settles O60: of the two commands that one row can bring only one finds edits to seal. -/
theorem theQueueKeepsItsOrder : Obligations.TheQueueKeepsItsOrder := by
  unfold Obligations.TheQueueKeepsItsOrder
  intro s t h
  have hq : Shrinks s.queue t.queue ∨ ∃ b, Shrinks (s.queue ++ [b]) t.queue := by
    rcases (stepTo_of_step h).shrinks with ⟨p, hp⟩ | hq
    · exact hp.queueAfter.2.2 (Nat.le_refl 2)
    · exact .inl hq
  rcases hq with hq | ⟨b, hq⟩
  · exact ⟨[], by simp, by rw [List.append_nil]; exact hq⟩
  · exact ⟨[b], by simp, hq⟩

end Sys2Proof.Machine
end

section
/-! The capacities (R52, R75, R77, R150): the bounds of the Notice Queues and histories, and the records of the pool. -/

namespace Sys2Proof.Machine

/-! ### Notice Queues and histories -/

/-- No Notice Queue holds more than 16 records or counts beyond 255, and no history holds more than 8 entries. -/
def State.Bounded (s : State) : Prop :=
  ∀ p : Port, (s.noticeQueue p).records.length ≤ 16 ∧ (s.noticeQueue p).dropped ≤ 255 ∧ (s.history p).length ≤ 8

namespace State.Bounded

variable {s t : State}

theorem congr (h : s.Bounded) (hn : t.notices = s.notices) (hh : t.histories = s.histories) : t.Bounded := by
  unfold State.Bounded State.noticeQueue State.history
  rw [hn, hh]
  exact h

theorem setNotices (h : s.Bounded) (p : Port) {q : NoticeQueue} (hr : q.records.length ≤ 16) (hd : q.dropped ≤ 255) :
    (s.setNotices p q).Bounded := by
  intro k
  rw [State.setNotices_noticeQueue]
  split
  · exact ⟨hr, hd, (h k).2.2⟩
  · exact h k

theorem setHistory (h : s.Bounded) (p : Port) {e : List HistoryEntry} (he : e.length ≤ 8) :
    (s.setHistory p e).Bounded := by
  intro k
  rw [State.setHistory_history]
  split
  · exact ⟨(h k).1, (h k).2.1, he⟩
  · exact h k

theorem post (h : s.Bounded) (p : Port) (n : Notice) : (s.post p n).Bounded := by
  obtain ⟨hr, hd, -⟩ := h p
  obtain ⟨htr, htd⟩ := NoticeQueue.take_bounds n hr hd
  rw [State.post_eq]
  split
  · exact h.setNotices p hr hd
  · exact h.setNotices p htr htd

theorem complete (h : s.Bounded) (p : Port) (k : Completion) (out : List Byte) : (s.complete p k out).Bounded := by
  rw [State.complete_eq]
  split <;> exact h

theorem told (h : s.Bounded) (ht : Told s t) : t.Bounded :=
  ht.keeps h (fun _ p k out h => h.complete p k out) (fun _ p n h => h.post p n)
    fun _ p e h => h.setHistory p (pushHistory_length (h p).2.2 e)

theorem pushPurged_length (field : Byte) : ∀ (l : List Batch) {e : List HistoryEntry}, e.length ≤ 8 →
    (pushPurged field e l).length ≤ 8
  | [], _, he => he
  | _ :: rest, _, he => pushPurged_length field rest (pushHistory_length he _)

theorem beginLapse (h : s.Bounded) (p : Port) (cause : LapseCause) : (s.beginLapse p cause).Bounded := by
  have hbegun : (s.lapseBegun p cause).Bounded :=
    h.setHistory p (pushPurged_length s.timing.field (s.queue.filter (Batch.purgedBy p)) (h p).2.2)
  rw [State.beginLapse_eq]
  rcases told_endInFlight (s.lapseBegun p cause) p (s.queue.find? (Batch.waitsFor p)) with ht | ht
  · exact hbegun.told ht
  · refine told ?_ ht
    exact hbegun

theorem tickLease (h : s.Bounded) (p : Port) : (s.tickLease p).Bounded := by
  rcases s.tickLease_cases p with ⟨-, ht⟩ | ⟨-, -, ht⟩ | ht <;> rw [ht]
  · exact h.beginLapse p .expired
  · exact h
  · exact h

theorem lapseSession (h : s.Bounded) (p : Port) (field : Byte) : (s.lapseSession p field).Bounded := by
  have hset : (s.setSession p { s.session p with state := .detached, inLapseSet := false }).Bounded := h
  have hposted := (hset.setNotices p (q := .empty) (Nat.zero_le 16) (Nat.zero_le 255)).post p
    (sessionEnded field p (s.session p))
  unfold State.lapseSession
  simp only
  split
  · exact hposted
  · exact hposted.told (told_postSupervisor _ _)

theorem completeLapse (h : s.Bounded) (field : Byte) (p : Port) : (s.completeLapse field p).Bounded := by
  unfold State.completeLapse
  split
  · have hclaims : (s.lapseClaims p).Bounded := h
    exact hclaims.lapseSession p field
  · exact h

theorem revokePlane (h : s.Bounded) (field : Byte) (q : Plane) : (State.revokePlane field s q).Bounded := by
  unfold State.revokePlane
  split
  · refine post ?_ _ _
    exact h
  · exact h
  · exact h

theorem revokeBank (h : s.Bounded) (field : Byte) (b : Bank) : (State.revokeBank field s b).Bounded := by
  unfold State.revokeBank
  split
  · refine post ?_ _ _
    exact h
  · exact h
  · exact h

theorem comparePlane (h : s.Bounded) (q : Plane) : (s.comparePlane q).Bounded := by
  unfold State.comparePlane
  split
  · exact h
  · refine told ?_ (told_postComparison _ q _)
    exact h

theorem compared (h : s.Bounded) : s.compared.Bounded :=
  foldl_keeps (P := State.Bounded) (f := State.comparePlane) (fun _ q h => h.comparePlane q) allPlanes h

theorem lapsesCompleted (h : s.Bounded) (field : Byte) : (s.lapsesCompleted field).Bounded := by
  unfold State.lapsesCompleted
  exact ((h.completeLapse field 0).completeLapse field 1).completeLapse field 2

theorem revocationsCompleted (h : s.Bounded) (field : Byte) : (s.revocationsCompleted field).Bounded :=
  foldl_keeps (P := State.Bounded) (f := State.revokeBank field) (fun _ b h => h.revokeBank field b) allBanks
    (foldl_keeps (P := State.Bounded) (f := State.revokePlane field) (fun _ q h => h.revokePlane field q) allPlanes h)

theorem takeScan (h : s.Bounded) : s.takeScan.Bounded := by
  cases hm : s.live.pendingMark with
  | false => rwa [State.takeScan_of_not_pending hm]
  | true => exact told (s := s.scanTaken) h (told_takeScan hm)

theorem scanBatch (h : s.Bounded) (w : Window) (b : Batch) : (s.scanBatch w b).Bounded := by
  unfold State.scanBatch
  split
  case h_4 =>
    refine told ?_ (told_reportRejected _ _ _ _ _ _)
    exact h
  all_goals exact h

theorem acted {p : Port} {r : Reply × State} (h : s.Bounded) (ha : Acted p s r) : r.2.Bounded := by
  cases ha with
  | attached k out lease =>
    exact setHistory (s := ((s.setSession p _).setStaged p .empty).setNextBatch p 1) h p (Nat.zero_le 8)
  | lapsed k out q cause => exact h.beginLapse q cause
  | claimed k out r => cases r <;> exact h
  | released k out r => cases r <;> exact h
  | revoked k out r => cases r <;> exact h
  | withdrawn k out n b hb hst e =>
    exact setHistory (s := { s with queue := s.queue.eraseP (Batch.isNamed p (s.session p).number n) }) h p
      (pushHistory_length (h p).2.2 e)
  | delivered k out =>
    refine h.setNotices p ?_ (Nat.zero_le 255)
    have hlen := (h p).1
    simp only [NoticeQueue.delivered, List.length_drop]
    omega
  | _ => exact h

theorem reset (addrsel : Bool) (supsel : BitVec 2) (s : State) :
    State.Bounded { State.deviceReset false addrsel supsel s.pending with freeIndex := s.freeIndex } := by
  intro p
  have hn : (Vector.replicate 3 NoticeQueue.empty)[p] = NoticeQueue.empty := by revert p; decide
  have hh : (Vector.replicate 3 ([] : List HistoryEntry))[p] = [] := by revert p; decide
  simp only [State.noticeQueue, State.history, State.deviceReset, hn, hh]
  decide

/-- Every step keeps the bounds. -/
theorem stepTo (h : s.Bounded) (hst : StepTo s t) : t.Bounded := by
  cases hst with
  | stays => exact h
  | port p hp =>
    refine hp.keeps h (fun _ _ h => h) (fun u h => ?_) fun _ _ h ha => h.acted ha
    rw [State.restartLease_eq]
    exact h
  | idle =>
    rw [State.edge_frame]
    exact h
  | reset addrsel supsel => exact reset addrsel supsel s
  | release => exact h
  | fieldStart =>
    have he := told (s := { s with compose := { s.compose with pipe := .lineEnd true } }.blankingEnded) h
      (told_endBlanking _)
    exact he.takeScan
  | waitEnds _ p w field => exact complete (s := s.setWaiter p none) h p .ok [field]
  | refIn => exact h
  | pixel _ x y =>
    rw [State.edge_frame]
    exact h
  | blankStart => exact h
  | faults => exact (h.told (told_faultsReported s)).congr (by dsimp only) (by dsimp only)
  | compare => exact h.compared.congr (by dsimp only) (by dsimp only)
  | lapses _ w => exact (h.lapsesCompleted w.field).congr (by dsimp only) (by dsimp only)
  | revocations _ w => exact (h.revocationsCompleted w.field).congr (by dsimp only) (by dsimp only)
  | scanned _ w b => exact (h.scanBatch w b).congr (by dsimp only) (by dsimp only)
  | scanEnds => exact h
  | judged _ w b =>
    rcases s.judged_cases w.field b with ⟨-, ht⟩ | ht
    · refine told ?_ ht
      exact h
    · refine told ?_ ht
      exact h
  | countdown => exact h
  | sealTimeout _ p b =>
    refine complete ?_ p _ _
    exact h
  | leaseTick => exact ((h.tickLease 0).tickLease 1).tickLease 2
  | leaseExpiry _ p => exact h.beginLapse p .expired

end State.Bounded

/-! ### Records of the pool, and room in the queue -/

/-- The records of a port's batches, from their keys. -/
theorem queueRecords_eq_keys (p : Port) (queue : List Batch) :
    queueRecords p queue = ((queue.map Batch.key).map fun k => if k.1 = p then k.2.2.2.length else 0).sum := by
  induction queue with
  | nil => rfl
  | cons b rest ih =>
    rw [queueRecords, ih]
    rfl

theorem sum_map_le_of_sublist {α : Type} (f : α → Nat) {l l' : List α} (h : l'.Sublist l) :
    (l'.map f).sum ≤ (l.map f).sum := by
  induction h with
  | slnil => exact Nat.le_refl _
  | cons a _ ih =>
    rw [List.map_cons, List.sum_cons]
    exact Nat.le_trans ih (Nat.le_add_left _ _)
  | cons_cons a _ ih =>
    rw [List.map_cons, List.map_cons, List.sum_cons, List.sum_cons]
    exact Nat.add_le_add_left ih _

theorem Shrinks.queueRecords_le {q q' : List Batch} (h : Shrinks q q') (p : Port) :
    queueRecords p q' ≤ queueRecords p q := by
  rw [queueRecords_eq_keys, queueRecords_eq_keys]
  exact sum_map_le_of_sublist _ h

theorem portBatches_eq_keys (p : Port) (queue : List Batch) :
    queue.countP (fun b => b.port == p) = (queue.map Batch.key).countP fun k => k.1 == p := by
  rw [List.countP_map]
  rfl

theorem Shrinks.portBatches_le {s t : State} (h : Shrinks s.queue t.queue) (p : Port) :
    t.portBatches p ≤ s.portBatches p := by
  unfold State.portBatches
  rw [portBatches_eq_keys, portBatches_eq_keys]
  exact List.Sublist.countP_le h

theorem queueRecords_append (p : Port) (queue : List Batch) (b : Batch) :
    queueRecords p (queue ++ [b]) = queueRecords p queue + if b.port = p then b.edits.length else 0 := by
  simp only [queueRecords_eq_keys, List.map_append, List.sum_append]
  simp [Batch.key]

/-- The queue and the pool are within their limits (R52, R75). -/
structure State.Fits (s : State) : Prop where
  queue : s.queue.length ≤ 8
  portQueue : ∀ p : Port, s.portBatches p ≤ 4
  pool : s.poolUsed ≤ 96
  records : ∀ p : Port, s.recordsInUse p ≤ 48

theorem capacityLaw_iff {s : State} : CapacityLaw s ↔ s.Fits ∧ s.Bounded :=
  ⟨fun h => ⟨⟨h.queue, h.portQueue, h.pool, h.records⟩, fun p => ⟨h.notices p, h.dropped p, h.histories p⟩⟩,
    fun ⟨hf, hb⟩ => ⟨hf.queue, hf.portQueue, hf.pool, hf.records, fun p => (hb p).1, fun p => (hb p).2.1,
      fun p => (hb p).2.2⟩⟩

/-- Every Staged List is kept, or emptied. -/
def State.StagesKept (s t : State) : Prop := ∀ p : Port, t.staged p = s.staged p ∨ t.staged p = .empty

theorem State.stagesKept_refl (s : State) : s.StagesKept s := fun _ => .inl rfl

theorem State.stagesKept_of_eq {s t : State} (h : t.staging = s.staging) : s.StagesKept t := by
  intro p
  unfold State.staged
  rw [h]
  exact .inl rfl

theorem State.stagesKept_emptied (s : State) (p : Port) : s.StagesKept (s.setStaged p .empty) := by
  intro k
  rw [State.setStaged_staged]
  split
  · exact .inr rfl
  · exact .inl rfl

theorem State.StagesKept.trans {s t u : State} (h : s.StagesKept t) (h' : t.StagesKept u) : s.StagesKept u := by
  intro p
  rcases h' p with hp | hp
  · rw [hp]
    exact h p
  · exact .inr hp

theorem State.StagesKept.length_le {s t : State} (h : s.StagesKept t) (p : Port) :
    (t.staged p).list.length ≤ (s.staged p).list.length := by
  rcases h p with h | h
  · exact Nat.le_of_eq (congrArg (fun x : Staging => x.list.length) h)
  · rw [h]
    exact Nat.zero_le _

namespace State.Fits

variable {s t : State}

theorem of_shrinks (h : s.Fits) (hq : Shrinks s.queue t.queue) (hs : s.StagesKept t) : t.Fits := by
  have hrec : ∀ p, t.recordsInUse p ≤ s.recordsInUse p := fun p => Nat.add_le_add (hs.length_le p) (hq.queueRecords_le p)
  refine ⟨Nat.le_trans hq.length_le h.queue, fun p => Nat.le_trans (hq.portBatches_le p) (h.portQueue p), ?_,
    fun p => Nat.le_trans (hrec p) (h.records p)⟩
  have hpool := h.pool
  unfold State.poolUsed at hpool ⊢
  have h0 := hrec 0
  have h1 := hrec 1
  have h2 := hrec 2
  omega

/-- One more record at one port that has room. -/
theorem of_one_more (h : s.Fits) (p : Port) (hpool : s.poolUsed < 96) (hcap : s.recordsInUse p < 48)
    (hqueue : t.queue = s.queue) (hp : t.recordsInUse p = s.recordsInUse p + 1)
    (hother : ∀ q, q ≠ p → t.recordsInUse q = s.recordsInUse q) : t.Fits := by
  have hrec : ∀ q, t.recordsInUse q = s.recordsInUse q + if q = p then 1 else 0 := by
    intro q
    split
    · rename_i hq
      rw [hq, hp]
    · rename_i hq
      rw [hother q hq, Nat.add_zero]
  refine ⟨hqueue ▸ h.queue, fun q => ?_, ?_, fun q => ?_⟩
  · unfold State.portBatches
    rw [hqueue]
    exact h.portQueue q
  · have hone : (if 0 = p then 1 else 0) + (if 1 = p then 1 else 0) + (if 2 = p then 1 else 0) = 1 :=
      (by decide : ∀ p : Port, (if 0 = p then 1 else 0) + (if 1 = p then 1 else 0) + (if 2 = p then 1 else 0) = 1) p
    unfold State.poolUsed at hpool ⊢
    rw [hrec 0, hrec 1, hrec 2]
    omega
  · rw [hrec]
    have hq := h.records q
    split
    · rename_i he
      rw [he]
      omega
    · omega

/-- A Staged List that becomes a batch keeps its records in use (R52, R72). -/
theorem sealed (h : s.Fits) {p : Port} {a : SealArgs} (hq : s.queue.length < 8) (hp : s.portBatches p < 4) :
    (s.sealed p (sealedBatch p a s)).Fits := by
  have hrec : ∀ k, (s.sealed p (sealedBatch p a s)).recordsInUse k = s.recordsInUse k := by
    intro k
    have hstaged : (s.sealed p (sealedBatch p a s)).staged k = if k = p then .empty else s.staged k :=
      State.setStaged_staged s p .empty k
    have hqueue : (s.sealed p (sealedBatch p a s)).queue = s.queue ++ [sealedBatch p a s] := rfl
    unfold State.recordsInUse
    rw [hstaged, hqueue, queueRecords_append]
    by_cases hk : k = p
    · subst hk
      simp [sealedBatch, Staging.empty]
      omega
    · have hk' : ¬ p = k := fun e => hk e.symm
      simp [sealedBatch, hk, hk']
  refine ⟨?_, fun k => ?_, ?_, fun k => Nat.le_trans (Nat.le_of_eq (hrec k)) (h.records k)⟩
  · simp only [State.sealed, List.length_append, List.length_singleton]
    omega
  · have hk := h.portQueue k
    simp only [State.portBatches, State.sealed, List.countP_append, List.countP_singleton, sealedBatch] at hk hp ⊢
    by_cases he : p = k
    · subst he
      simp only [beq_self_eq_true, if_true]
      omega
    · simp only [beq_eq_false_iff_ne.2 he, Bool.false_eq_true, if_false]
      omega
  · simp only [State.poolUsed, hrec]
    exact h.pool

theorem acted {p : Port} {r : Reply × State} (h : s.Fits) (ha : Acted p s r) : r.2.Fits := by
  cases ha with
  | attached | detached | emptied => exact h.of_shrinks (.refl _) (s.stagesKept_emptied p)
  | lapsed k out q cause =>
    refine h.of_shrinks (s.beginLapse_shrinks q cause) ?_
    obtain ⟨c, x, v, e, w, hf⟩ := s.beginLapse_frame q cause
    rw [hf]
    exact s.stagesKept_emptied q
  | claimed k out r => cases r <;> exact h.of_shrinks (.refl _) s.stagesKept_refl
  | released k out r => cases r <;> exact h.of_shrinks (.refl _) s.stagesKept_refl
  | revoked k out r => cases r <;> exact h.of_shrinks (.refl _) s.stagesKept_refl
  | staged k out e payload hs hwf hpool hcap =>
    refine h.of_one_more p hpool hcap rfl ?_ fun q hq => ?_
    · simp only [State.recordsInUse, State.setStaged_staged, if_true, State.setStaged_queue, Staging.add,
        List.length_append, List.length_singleton]
      omega
    · simp only [State.recordsInUse, State.setStaged_staged, if_neg hq, State.setStaged_queue]
  | sealed reply a hs hne hq hp => exact h.sealed hq hp
  | withdrawn => exact h.of_shrinks (.of_sublist List.eraseP_sublist) s.stagesKept_refl
  | answered | freeValues | waits | delivered => exact h.of_shrinks (.refl _) s.stagesKept_refl

end State.Fits

theorem State.tickLease_stagesKept (s : State) (p : Port) : s.StagesKept (s.tickLease p) := by
  rcases s.tickLease_cases p with ⟨-, h⟩ | ⟨-, -, h⟩ | h <;> rw [h]
  · obtain ⟨c, x, v, e, w, hf⟩ := s.beginLapse_frame p .expired
    rw [hf]
    exact s.stagesKept_emptied p
  · exact s.stagesKept_refl
  · exact s.stagesKept_refl

/-- Beside the commands of the ports no step writes a Staged List but to empty it. -/
theorem StepTo.stagesKept {s t : State} (h : StepTo s t) : (∃ p, PortPath p s 2 t) ∨ s.StagesKept t := by
  cases h with
  | port p h => exact .inl ⟨p, h⟩
  | idle =>
    rw [State.edge_frame]
    exact .inr s.stagesKept_refl
  | reset =>
    refine .inr fun p => ?_
    have hs : (Vector.replicate 3 Staging.empty)[p] = Staging.empty := by revert p; decide
    simp only [State.staged, State.deviceReset, hs]
    exact .inr trivial
  | fieldStart =>
    obtain ⟨v, h⟩ :=
      State.takeScan_endBlanking_frame { s with compose := { s.compose with pipe := .lineEnd true } }
    refine .inr (State.stagesKept_of_eq ?_)
    rw [h]
    show (if _ then _ else _ : State).staging = _
    split <;> rfl
  | waitEnds _ p w field =>
    exact .inr (State.stagesKept_of_eq (Told.complete (.refl (s := s.setWaiter p none)) p .ok [field]).staging)
  | pixel _ x y =>
    rw [State.edge_frame]
    exact .inr s.stagesKept_refl
  | faults => exact .inr (State.stagesKept_of_eq (told_faultsReported s).staging)
  | compare =>
    obtain ⟨g, v, h⟩ := s.compared_frame
    rw [h]
    exact .inr s.stagesKept_refl
  | lapses _ w =>
    obtain ⟨pl, g, pc, bc, x, v, h⟩ := s.lapsesCompleted_frame w.field
    rw [h]
    exact .inr s.stagesKept_refl
  | revocations _ w =>
    obtain ⟨pl, g, pc, bc, v, h⟩ := s.revocationsCompleted_frame w.field
    rw [h]
    exact .inr s.stagesKept_refl
  | scanned _ w b =>
    obtain ⟨q, w', c, x, v, e, h⟩ := s.scanBatch_frame w b
    rw [h]
    exact .inr s.stagesKept_refl
  | judged _ w b =>
    rcases s.judged_cases w.field b with ⟨-, h⟩ | h <;> exact .inr (State.stagesKept_of_eq h.staging)
  | sealTimeout _ p b => exact .inr (State.stagesKept_of_eq (Told.complete .refl p _ _).staging)
  | leaseTick =>
    exact .inr (((s.tickLease_stagesKept 0).trans (State.tickLease_stagesKept _ 1)).trans
      (State.tickLease_stagesKept _ 2))
  | leaseExpiry _ p =>
    obtain ⟨c, x, v, e, w, hf⟩ := s.beginLapse_frame p .expired
    rw [hf]
    exact .inr (s.stagesKept_emptied p)
  | stays | release | refIn | blankStart | scanEnds | countdown => exact .inr s.stagesKept_refl

theorem State.Fits.stepTo {s t : State} (h : s.Fits) (hst : StepTo s t) : t.Fits := by
  rcases hst.shrinks with ⟨p, hp⟩ | hq
  · refine hp.keeps h (fun _ _ h => h.of_shrinks (.refl _) (State.stagesKept_refl _)) (fun u h => ?_)
      fun _ _ h ha => h.acted ha
    rw [State.restartLease_eq]
    exact h.of_shrinks (.refl _) u.stagesKept_refl
  · rcases hst.stagesKept with ⟨p, hp⟩ | hs
    · refine hp.keeps h (fun _ _ h => h.of_shrinks (.refl _) (State.stagesKept_refl _)) (fun u h => ?_)
        fun _ _ h ha => h.acted ha
      rw [State.restartLease_eq]
      exact h.of_shrinks (.refl _) u.stagesKept_refl
    · exact h.of_shrinks hq hs

/-- Settles O56: records come by STAGE alone and room in the queue is taken by SEAL alone, each after its own check. -/
theorem capacitiesAreKept : Obligations.CapacitiesAreKept := by
  unfold Obligations.CapacitiesAreKept
  intro s t h hst
  obtain ⟨hf, hb⟩ := capacityLaw_iff.1 h
  have hst := stepTo_of_step hst
  have hff : s.fronted.Fits := hf.of_shrinks (.refl _) s.stagesKept_refl
  exact capacityLaw_iff.2 ⟨hff.stepTo hst, State.Bounded.stepTo (s := s.fronted) hb hst⟩

end Sys2Proof.Machine
end

section
/-! The window and the reference (R34, R38, R42, R46, R76, R78, R80, R82). -/

namespace Sys2Proof.Machine

/-! ### The working copy of a batch -/

/-- A property that every edit of a batch keeps holds of the working copy after them. -/
theorem Work.edits_keeps {P : Work → Prop} {edits : List Edit} (h : ∀ w i, ∀ e ∈ edits, P w → P (w.edit i e)) {w : Work}
    (i : Nat) (hw : P w) : P (w.edits i edits) := by
  induction edits generalizing w i with
  | nil => exact hw
  | cons e rest ih =>
    exact ih (fun w i e' he' => h w i e' (List.mem_cons_of_mem e he')) (i + 1) (h w i e List.mem_cons_self hw)

theorem Live.setGuarded_scans (l : Live) (p : Plane) :
    ∃ o g, l.setGuarded p = { l with order := o, guards := g } := by
  unfold Live.setGuarded
  split <;> exact ⟨_, _, rfl⟩

theorem Live.clearGuarded_scans (l : Live) (p : Plane) :
    ∃ o g, l.clearGuarded p = { l with order := o, guards := g } := by
  unfold Live.clearGuarded
  split <;> exact ⟨_, _, rfl⟩

/-- The Scan Record in force is no edit's to write; the pending one is not written unless it is marked as pending. -/
structure Live.ScansFollow (l l' : Live) : Prop where
  scan : l'.scan = l.scan
  pending : l'.pendingMark = false → l.pendingMark = false ∧ l'.pendingScan = l.pendingScan

theorem Work.edit_scansFollow {l : Live} {w : Work} (h : l.ScansFollow w.live) (i : Nat) (e : Edit) :
    l.ScansFollow (w.edit i e).live := by
  obtain ⟨hscan, hpending⟩ := h
  cases e with
  | plane e => exact ⟨hscan, hpending⟩
  | colours bank first cs => exact ⟨hscan, hpending⟩
  | order p form => exact ⟨hscan, hpending⟩
  | signature p expected limit action =>
    simp only [Work.edit]
    split <;> exact ⟨hscan, hpending⟩
  | guard p set =>
    cases set with
    | true =>
      obtain ⟨o, g, hl⟩ := w.live.setGuarded_scans p
      simp only [Work.edit, hl]
      exact ⟨hscan, hpending⟩
    | false =>
      obtain ⟨o, g, hl⟩ := w.live.clearGuarded_scans p
      simp only [Work.edit, hl]
      exact ⟨hscan, hpending⟩
  | scan e => exact ⟨hscan, fun h => by cases h⟩

theorem workOf_scansFollow (l : Live) (edits : List Edit) : l.ScansFollow (workOf l edits).live :=
  Work.edits_keeps (P := fun w => l.ScansFollow w.live) (fun _ i e _ h => Work.edit_scansFollow h i e) 1
    ⟨rfl, fun h => ⟨h, rfl⟩⟩

/-- The beginning of a field writes the guard records, the waiters, the counters, the snapshot and the marks of the
field. -/
theorem State.beginField_frame (s : State) (newScan : Bool) :
    ∃ g w held owners, s.beginField newScan =
      { s with
        timing := { s.timing with region := .active, line := 0, pixel := 0, waiters := w }
        live := { s.live with guards := g }
        monitor := { newScan, compareDue := false }
        compose :=
          { s.compose with
            snapshot :=
              { planes := s.live.planes, order := s.live.order, palette := s.live.palette, scan := s.live.scan, held, owners }
            faultA := Vector.replicate 3 none, faultB := Vector.replicate 3 none, reportDue := false } } :=
  ⟨_, _, _, _, rfl⟩

/-! ### What the two laws read -/

/-- The state and the member mark of a batch. -/
def Batch.mark (b : Batch) : BatchState × Bool := (b.state, b.member)

/-- What the laws of the window and of the reference read beside the queue and the pending Scan Record. -/
def State.fieldPart (s : State) :=
  (s.timing.region, s.timing.field, s.timing.line, s.live.scan, s.compose.snapshot.scan, s.window, s.nreset,
    s.timing.refState, s.timing.pendingRef)

/-- The marks of the batches are those of batches of the first queue. -/
def MarksShrink (queue queue' : List Batch) : Prop := (queue'.map Batch.mark).Sublist (queue.map Batch.mark)

theorem MarksShrink.refl (q : List Batch) : MarksShrink q q := List.Sublist.refl _

theorem MarksShrink.of_sublist {q q' : List Batch} (h : q'.Sublist q) : MarksShrink q q' := h.map _

theorem MarksShrink.trans {q q' q'' : List Batch} (h : MarksShrink q q') (h' : MarksShrink q' q'') : MarksShrink q q'' :=
  List.Sublist.trans h' h

theorem MarksShrink.map {f : Batch → Batch} (hf : ∀ b, (f b).mark = b.mark) (q : List Batch) : MarksShrink q (q.map f) := by
  have hmarks : (q.map f).map Batch.mark = q.map Batch.mark := by
    rw [List.map_map]
    exact List.map_congr_left fun b _ => hf b
  unfold MarksShrink
  exact hmarks ▸ List.Sublist.refl _

theorem MarksShrink.modifyFirst (f : Batch → Bool) {g : Batch → Batch} (hg : ∀ b, (g b).mark = b.mark) (q : List Batch) :
    MarksShrink q (modifyFirst f g q) := by
  induction q with
  | nil => exact .refl _
  | cons b rest ih =>
    unfold Machine.modifyFirst
    split
    · have hmarks : (g b :: rest).map Batch.mark = (b :: rest).map Batch.mark := by
        rw [List.map_cons, List.map_cons, hg b]
      unfold MarksShrink
      exact hmarks ▸ List.Sublist.refl _
    · exact List.Sublist.cons_cons _ ih

theorem MarksShrink.exists_mark {q q' : List Batch} (h : MarksShrink q q') {b : Batch} (hb : b ∈ q') :
    ∃ b' ∈ q, b'.mark = b.mark :=
  List.mem_map.1 (h.subset (List.mem_map_of_mem hb))

theorem MarksShrink.countP_le {q q' : List Batch} (h : MarksShrink q q') :
    q'.countP Batch.isApplying ≤ q.countP Batch.isApplying := by
  have hmark : ∀ l : List Batch, l.countP Batch.isApplying = (l.map Batch.mark).countP fun m => m.1 == .applying := by
    intro l
    rw [List.countP_map]
    rfl
  rw [hmark, hmark]
  exact List.Sublist.countP_le h

theorem State.someApplying_iff {s : State} : s.someApplying = true ↔ ∃ b ∈ s.queue, b.state = .applying := by
  simp [State.someApplying]

theorem State.queued_of_not_someApplying {s : State} (h : s.someApplying = false) {b : Batch} (hb : b ∈ s.queue) :
    b.state = .queued := by
  cases hs : b.state with
  | queued => rfl
  | applying => exact absurd (State.someApplying_iff.2 ⟨b, hb, hs⟩) (by simp [h])

theorem State.countP_isApplying {s : State} (h : s.someApplying = false) : s.queue.countP Batch.isApplying = 0 := by
  rw [List.countP_eq_zero]
  intro b hb
  simp [Batch.isApplying, State.queued_of_not_someApplying h hb]

/-- Both laws. -/
def State.FieldLaws (s : State) : Prop := WindowLaw s ∧ ReferenceLaw s

namespace State.FieldLaws

variable {s t : State}

/-- The laws are kept by what leaves the parts they read alone, takes batches away, and pends a Scan Record with its mark. -/
theorem congr (h : s.FieldLaws) (hpart : t.fieldPart = s.fieldPart) (hq : MarksShrink s.queue t.queue)
    (hactive : s.live.pendingMark = false → s.window = none → t.live.pendingMark = false)
    (hpending : t.live.pendingMark = false → s.live.pendingMark = false ∧ t.live.pendingScan = s.live.pendingScan) :
    t.FieldLaws := by
  obtain ⟨hw, hr⟩ := h
  simp only [State.fieldPart, Prod.mk.injEq] at hpart
  obtain ⟨region, field, line, scan, snapshot, window, nreset, refState, pendingRef⟩ := hpart
  constructor
  · constructor
    case active =>
      rw [region, window]
      exact fun h => ⟨(hw.active h).1, hactive (hw.active h).2 (hw.active h).1⟩
    case pending =>
      intro h
      rw [(hpending h).2, scan]
      exact hw.pending (hpending h).1
    case snapshot => rw [snapshot, scan]; exact hw.snapshot
    case closed =>
      rw [window]
      intro h b hb
      obtain ⟨b', hb', hm⟩ := hq.exists_mark hb
      obtain ⟨hst, hme⟩ := hw.closed h b' hb'
      simp only [Batch.mark, Prod.mk.injEq] at hm
      exact ⟨hm.1 ▸ hst, hm.2 ▸ hme⟩
    case oneApplying => exact Nat.le_trans hq.countP_le hw.oneApplying
    case applying =>
      rw [window]
      intro w h ha
      obtain ⟨b, hb, hst⟩ := State.someApplying_iff.1 ha
      obtain ⟨b', hb', hm⟩ := hq.exists_mark hb
      exact hw.applying w h (State.someApplying_iff.2 ⟨b', hb', (congrArg Prod.fst hm).trans hst⟩)
    case budget => rw [window]; exact hw.budget
    case field => rw [window, field]; exact hw.field
    case low => rw [nreset, region]; exact hw.low
    case lines => rw [window, line, scan]; exact hw.lines
  · constructor
    · rw [refState, scan]; exact hr.follow
    · rw [refState, pendingRef]; exact hr.flag

/-- What leaves every part that the laws read alone, and takes batches away at most. -/
theorem congr_queue (h : s.FieldLaws) (hpart : t.fieldPart = s.fieldPart) (hq : MarksShrink s.queue t.queue)
    (hmark : t.live.pendingMark = s.live.pendingMark) (hscan : t.live.pendingScan = s.live.pendingScan) : t.FieldLaws :=
  h.congr hpart hq (fun h _ => hmark.trans h) fun h => ⟨hmark ▸ h, hscan⟩

/-- What leaves every part that the laws read alone. -/
theorem same (h : s.FieldLaws)
    (hparts : (t.fieldPart, t.queue, t.live.pendingMark, t.live.pendingScan) =
      (s.fieldPart, s.queue, s.live.pendingMark, s.live.pendingScan)) : t.FieldLaws := by
  simp only [Prod.mk.injEq] at hparts
  obtain ⟨hpart, hqueue, hmark, hscan⟩ := hparts
  exact h.congr_queue hpart (hqueue ▸ .refl _) hmark hscan

theorem told (h : s.FieldLaws) (ht : Told s t) : t.FieldLaws := by
  obtain ⟨c, x, v, e, rfl⟩ := ht.frame
  exact h.same rfl

theorem beginLapse (h : s.FieldLaws) (p : Port) (cause : LapseCause) : (s.beginLapse p cause).FieldLaws := by
  obtain ⟨c, x, v, e, w, hf⟩ := s.beginLapse_frame p cause
  rw [hf]
  exact h.congr_queue rfl ((MarksShrink.of_sublist List.filter_sublist).trans (.map (fun b => by split <;> rfl) _)) rfl rfl

theorem tickLease (h : s.FieldLaws) (p : Port) : (s.tickLease p).FieldLaws := by
  rcases s.tickLease_cases p with ⟨-, ht⟩ | ⟨-, -, ht⟩ | ht <;> rw [ht]
  · exact h.beginLapse p .expired
  · exact h.same rfl
  · exact h

/-- A sealed batch is Queued and no member of a window that is open (R72, R78). -/
theorem sealed (h : s.FieldLaws) (p : Port) (a : SealArgs) : (s.sealed p (sealedBatch p a s)).FieldLaws := by
  obtain ⟨hw, hr⟩ := h
  have hqueue : (s.sealed p (sealedBatch p a s)).queue = s.queue ++ [sealedBatch p a s] := rfl
  have hcases : ∀ b ∈ (s.sealed p (sealedBatch p a s)).queue, b ∈ s.queue ∨ b = sealedBatch p a s := by
    intro b hb
    rw [hqueue] at hb
    simpa using hb
  refine ⟨⟨hw.active, hw.pending, hw.snapshot, ?_, ?_, ?_, hw.budget, hw.field, hw.low, hw.lines⟩, ⟨hr.follow, hr.flag⟩⟩
  · intro h b hb
    rcases hcases b hb with hb | rfl
    · exact hw.closed h b hb
    · exact ⟨rfl, rfl⟩
  · rw [hqueue, List.countP_append]
    exact hw.oneApplying
  · intro w h ha
    obtain ⟨b, hb, hst⟩ := State.someApplying_iff.1 ha
    rcases hcases b hb with hb | rfl
    · exact hw.applying w h (State.someApplying_iff.2 ⟨b, hb, hst⟩)
    · cases hst

theorem acted {p : Port} {r : Reply × State} (h : s.FieldLaws) (ha : Acted p s r) : r.2.FieldLaws := by
  cases ha with
  | lapsed k out q cause => exact h.beginLapse q cause
  | claimed k out r => cases r <;> exact h.same rfl
  | released k out r => cases r <;> exact h.same rfl
  | revoked k out r => cases r <;> exact h.same rfl
  | sealed reply a => exact h.sealed p a
  | withdrawn => exact h.congr_queue rfl (.of_sublist List.eraseP_sublist) rfl rfl
  | _ => exact h.same rfl

theorem portPath {p : Port} {n : Nat} (h : s.FieldLaws) (hp : PortPath p s n t) : t.FieldLaws := by
  refine hp.keeps h (fun _ _ h => h.same rfl) (fun u h => ?_) fun _ _ h ha => h.acted ha
  rw [State.restartLease_eq]
  exact h.same rfl

/-- An open window ends before the last blanking line does, so that an edge leaves the lines before line V (R38). -/
theorem edge (h : s.FieldLaws) (he : s.window = none ∨ s.windowEndDue = false) (a b : Sample) : (s.edge a b).FieldLaws := by
  obtain ⟨hw, hr⟩ := h
  have hadvance : ∃ line pixel, s.timing.advance s.live.scan = { s.timing with line, pixel }
      ∧ (s.window.isSome → line < s.live.scan.vblank) := by
    unfold Timing.advance
    split
    · refine ⟨_, _, rfl, fun h => ?_⟩
      obtain ⟨w, h⟩ := Option.isSome_iff_exists.1 h
      exact hw.lines w h
    · refine ⟨_, _, rfl, fun h => ?_⟩
      rcases he with he | he
      · rw [he] at h
        cases h
      · simp only [State.windowEndDue, h, Bool.true_and, Bool.and_eq_false_iff, decide_eq_false_iff_not] at he
        omega
  obtain ⟨line, pixel, ht, hline⟩ := hadvance
  rw [State.edge_frame, ht]
  exact ⟨⟨hw.active, hw.pending, hw.snapshot, hw.closed, hw.oneApplying, hw.applying, hw.budget, hw.field, hw.low,
    fun w h => hline (Option.isSome_iff_exists.2 ⟨w, h⟩)⟩, ⟨hr.follow, hr.flag⟩⟩

/-- A skip to a pixel happens in the active region, where no window is open (R38). -/
theorem skipTo (h : s.FieldLaws) (hwindow : s.window = none) (x y : Nat) : (s.skipTo x y).FieldLaws := by
  obtain ⟨hw, hr⟩ := h
  exact ⟨⟨hw.active, hw.pending, hw.snapshot, hw.closed, hw.oneApplying, hw.applying, hw.budget, hw.field, hw.low,
    fun w h => by cases hwindow.symm.trans h⟩, ⟨hr.follow, hr.flag⟩⟩

theorem blankStart (h : s.FieldLaws) (hn : s.nreset = true) (hr : s.timing.region = .active)
    (hscan : s.live.scan.inRange) :
    State.FieldLaws
      { s.openWindow with
        timing := { s.timing with region := .blanking, line := 0, pixel := 0 }
        monitor := { s.monitor with compareDue := true }
        compose := { s.compose with reportDue := true, pipe := .lineEnd false } } := by
  obtain ⟨hw, href⟩ := h
  obtain ⟨hnone, -⟩ := hw.active hr
  have hqueued : ∀ b ∈ s.queue.map (Batch.joined s.timing.field), b.state = .queued := by
    intro b hb
    obtain ⟨b', hb', rfl⟩ := List.mem_map.1 hb
    have hst := (hw.closed hnone b' hb').1
    unfold Batch.joined
    rw [if_pos hst]
    exact hst
  refine ⟨⟨fun h => (by cases h), hw.pending, hw.snapshot, fun h => (by cases h), ?_, ?_, ?_, ?_, fun h => ?_, ?_⟩, ⟨href.follow, href.flag⟩⟩
  · have hzero : (s.queue.map (Batch.joined s.timing.field)).countP Batch.isApplying = 0 := by
      rw [List.countP_eq_zero]
      intro b hb
      simp [Batch.isApplying, hqueued b hb]
    exact Nat.le_trans (Nat.le_of_eq hzero) (Nat.zero_le 1)
  · intro w _ ha
    obtain ⟨b, hb, hst⟩ := State.someApplying_iff.1 ha
    cases (hqueued b hb).symm.trans hst
  · rintro w ⟨rfl⟩
    exact Nat.le_refl _
  · rintro w ⟨rfl⟩
    rfl
  · exact absurd (hn.symm.trans h) (by decide)
  · intro w _
    obtain ⟨-, -, -, -, -, -, hv, -⟩ := hscan
    exact Nat.lt_of_lt_of_le (Nat.succ_pos 3) hv

/-- A field begins with no window open and the Scan Record in force not pending any more. -/
theorem beginField (hwindow : s.window = none) (hmark : s.live.pendingMark = false)
    (hpending : s.live.pendingScan = s.live.scan) (hclosed : ∀ b ∈ s.queue, b.state = .queued ∧ b.member = false)
    (hr : ReferenceLaw s) (newScan : Bool) : (s.beginField newScan).FieldLaws := by
  obtain ⟨g, w, held, owners, hf⟩ := s.beginField_frame newScan
  rw [hf]
  have hnone : ∀ {w}, s.window ≠ some w := fun h => by cases hwindow.symm.trans h
  have hzero : s.queue.countP Batch.isApplying = 0 := by
    rw [List.countP_eq_zero]
    intro b hb
    simp [Batch.isApplying, (hclosed b hb).1]
  exact ⟨⟨fun _ => ⟨hwindow, hmark⟩, fun _ => hpending, rfl, fun _ => hclosed, Nat.le_trans (Nat.le_of_eq hzero) (Nat.zero_le 1),
    fun w h => absurd h hnone, fun w h => absurd h hnone, fun w h => absurd h hnone, fun _ => rfl,
    fun w h => absurd h hnone⟩, ⟨hr.follow, hr.flag⟩⟩

/-- A change of stage, when no batch is Applying. -/
theorem setStage (h : s.FieldLaws) {w : Window} (hw : s.window = some w) (ha : s.someApplying = false)
    (stage : WindowStage) : State.FieldLaws { s with window := some { w with stage } } := by
  obtain ⟨hwin, hr⟩ := h
  refine ⟨⟨fun h => ?_, hwin.pending, hwin.snapshot, fun h => (by cases h), hwin.oneApplying, fun _ _ h => ?_, ?_, ?_,
    hwin.low, ?_⟩, ⟨hr.follow, hr.flag⟩⟩
  · cases hw.symm.trans (hwin.active h).1
  · cases ha.symm.trans h
  · rintro w' ⟨rfl⟩
    exact hwin.budget w hw
  · rintro w' ⟨rfl⟩
    exact hwin.field w hw
  · rintro w' ⟨rfl⟩
    exact hwin.lines w hw

end State.FieldLaws

/-! ### The reference at a Field Start -/

theorem ReferenceLaw.blankingEnded {s : State} (h : ReferenceLaw s) : ReferenceLaw s.blankingEnded := by
  have hfree : s.timing.endBlanking.1 = .free ↔ s.timing.refState = .free := by
    unfold Timing.endBlanking
    split <;> rename_i hs <;> simp only [hs] <;> (try split) <;> simp
  have hflag : s.timing.refState = .free → s.timing.endBlanking.2.1 = s.timing.pendingRef := by
    intro hs
    unfold Timing.endBlanking
    rw [hs]
  refine ⟨hfree.trans h.follow, fun hs => ?_⟩
  have hs := hfree.1 hs
  exact (hflag hs).trans (h.flag hs)

theorem ReferenceLaw.scanTaken {s : State} (h : ReferenceLaw s) : ReferenceLaw s.scanTaken := by
  obtain ⟨hfollow, hflag⟩ := h
  have htaken : ∀ new : ScanRecord,
      ((followTaken s.live.scan new (s.timing.refState, s.timing.pendingRef)).1 = .free ↔ new.follow = false)
      ∧ ((followTaken s.live.scan new (s.timing.refState, s.timing.pendingRef)).1 = .free →
        (followTaken s.live.scan new (s.timing.refState, s.timing.pendingRef)).2 = false) := by
    intro new
    unfold followTaken
    split <;> rename_i ho hnew
    · exact ⟨by simp [hfollow, ho, hnew], hflag⟩
    · exact ⟨by simp [hnew], fun _ => rfl⟩
    · exact ⟨by simp [hnew], fun _ => rfl⟩
    · exact ⟨by simp [hfollow, ho, hnew], hflag⟩
  exact ⟨(htaken s.live.pendingScan).1, (htaken s.live.pendingScan).2⟩

namespace State.FieldLaws

variable {s t : State}

theorem fieldStart (h : s.FieldLaws) (hwindow : s.window = none) :
    (({ s with compose := { s.compose with pipe := .lineEnd true } }.endBlanking.takeScan).beginField
      s.live.pendingMark).FieldLaws := by
  obtain ⟨hw, hr⟩ := h
  obtain ⟨v, hf⟩ :=
    State.takeScan_endBlanking_frame { s with compose := { s.compose with pipe := .lineEnd true } }
  have hended : ReferenceLaw { s with compose := { s.compose with pipe := .lineEnd true } }.blankingEnded :=
    ReferenceLaw.blankingEnded (s := { s with compose := { s.compose with pipe := .lineEnd true } }) ⟨hr.follow, hr.flag⟩
  rw [hf]
  cases hm : s.live.pendingMark with
  | true =>
    simp only [if_true]
    have htaken := hended.scanTaken
    refine beginField ?_ ?_ ?_ ?_ ⟨?_, ?_⟩ true
    · exact hwindow
    · rfl
    · rfl
    · exact hw.closed hwindow
    · exact htaken.follow
    · exact htaken.flag
  | false =>
    simp only [Bool.false_eq_true, if_false]
    refine beginField ?_ ?_ ?_ ?_ ⟨?_, ?_⟩ false
    · exact hwindow
    · exact hm
    · exact hw.pending hm
    · exact hw.closed hwindow
    · exact hended.follow
    · exact hended.flag

theorem scanBatch (h : s.FieldLaws) {w : Window} {b : Batch} (hw : s.window = some w) (hst : w.stage = .scan)
    (ha : s.someApplying = false) (hb : s.queue.find? Batch.unscanned = some b) : (s.scanBatch w b).FieldLaws := by
  have hscanned : MarksShrink s.queue (markScanned s.queue) := .modifyFirst _ (by exact fun _ => rfl) _
  have hopen : ∀ {t : State}, t.window = some w → t.window ≠ none := fun h h' => by cases h.symm.trans h'
  unfold State.scanBatch
  split
  · exact h.congr_queue rfl hscanned rfl rfl
  · exact h.congr_queue rfl hscanned rfl rfl
  · obtain ⟨hwin, hr⟩ := h.congr_queue (t := { s with queue := markScanned s.queue }) rfl hscanned rfl rfl
    have hactive : s.timing.region ≠ .active := fun h => hopen hw (hwin.active h).1
    refine ⟨⟨fun h => absurd h hactive, hwin.pending, hwin.snapshot, fun h => (by cases h), hwin.oneApplying, ?_, ?_, ?_,
      hwin.low, ?_⟩, ⟨hr.follow, hr.flag⟩⟩
    · rintro w' ⟨rfl⟩ -
      exact hst
    · rintro w' ⟨rfl⟩
      exact hwin.budget w hw
    · rintro w' ⟨rfl⟩
      exact hwin.field w hw
    · rintro w' ⟨rfl⟩
      exact hwin.lines w hw
  · refine told ?_ (told_reportRejected _ _ _ _ _ _)
    exact h.congr_queue rfl (.of_sublist List.eraseP_sublist) rfl rfl
  · exact h.setStage hw ha .countdown
  · obtain ⟨hwin, hr⟩ := h
    have hactive : s.timing.region ≠ .active := fun h => hopen hw (hwin.active h).1
    refine ⟨⟨fun h => absurd h hactive, hwin.pending, hwin.snapshot, fun h => (by cases h), ?_, ?_, ?_, ?_, hwin.low, ?_⟩,
      ⟨hr.follow, hr.flag⟩⟩
    · obtain ⟨l, r, hqueue, hl, hu⟩ := split_of_find? hb
      have hzero := State.countP_isApplying ha
      show (markApplying s.queue).countP Batch.isApplying ≤ 1
      rw [hqueue] at hzero ⊢
      rw [markApplying, modifyFirst_split hl hu]
      simp only [List.countP_append, List.countP_cons] at hzero ⊢
      split <;> omega
    · rintro w' ⟨rfl⟩ -
      exact hst
    · rintro w' ⟨rfl⟩
      exact Nat.le_trans (Nat.sub_le _ _) (hwin.budget w hw)
    · rintro w' ⟨rfl⟩
      exact hwin.field w hw
    · rintro w' ⟨rfl⟩
      exact hwin.lines w hw

theorem judged (h : s.FieldLaws) {w : Window} (hw : s.window = some w) (field : Byte) (b : Batch) :
    (s.judged field b).FieldLaws := by
  rcases s.judged_cases field b with ⟨-, ht⟩ | ht
  · refine told ?_ ht
    obtain ⟨hscan, hpending⟩ := workOf_scansFollow s.live b.edits
    refine h.congr ?_ (.of_sublist List.eraseP_sublist) (fun _ h => by cases hw.symm.trans h) hpending
    simp only [State.fieldPart, hscan]
  · refine told ?_ ht
    exact h.congr_queue rfl (.of_sublist List.eraseP_sublist) rfl rfl

theorem countdown (h : s.FieldLaws) (ha : s.someApplying = false) {w : Window} (hw : s.window = some w) (field : Byte) :
    State.FieldLaws { s with queue := s.queue.map (Batch.countedDown field), window := none } := by
  obtain ⟨hwin, hr⟩ := h
  have hcounted : ∀ b ∈ s.queue.map (Batch.countedDown field), b.state = .queued ∧ b.member = false := by
    intro b hb
    obtain ⟨b', hb', rfl⟩ := List.mem_map.1 hb
    have hst := State.queued_of_not_someApplying ha hb'
    unfold Batch.countedDown
    simp only
    split <;> exact ⟨hst, rfl⟩
  refine ⟨⟨fun h => ?_, hwin.pending, hwin.snapshot, fun _ => hcounted, ?_, fun w h => (by cases h), fun w h => (by cases h),
    fun w h => (by cases h), hwin.low, fun w h => (by cases h)⟩, ⟨hr.follow, hr.flag⟩⟩
  · cases hw.symm.trans (hwin.active h).1
  · have hzero : (s.queue.map (Batch.countedDown field)).countP Batch.isApplying = 0 := by
      rw [List.countP_eq_zero]
      intro b hb
      simp [Batch.isApplying, (hcounted b hb).1]
    exact Nat.le_trans (Nat.le_of_eq hzero) (Nat.zero_le 1)

theorem deviceReset (nreset addrsel : Bool) (supsel : BitVec 2) (pending : List Instr) (freeIndex : Nat) :
    State.FieldLaws { State.deviceReset nreset addrsel supsel pending with freeIndex } :=
  ⟨⟨fun _ => ⟨rfl, rfl⟩, fun _ => rfl, rfl, fun _ _ h => (by cases h), Nat.zero_le 1, fun _ h => (by cases h),
    fun _ h => (by cases h), fun _ h => (by cases h), fun _ => rfl, fun _ h => (by cases h)⟩,
    ⟨⟨fun _ => rfl, fun _ => rfl⟩, fun _ => rfl⟩⟩

theorem stepTo (h : s.FieldLaws) (hscan : s.live.scan.inRange) (hst : StepTo s t) : t.FieldLaws := by
  obtain ⟨hw, hr⟩ := h
  have h : s.FieldLaws := ⟨hw, hr⟩
  cases hst with
  | stays => exact h
  | port p hp => exact h.portPath hp
  | idle _ he =>
    refine h.edge ?_ _ _
    cases hreg : s.timing.region with
    | active => exact .inl (hw.active hreg).1
    | blanking =>
      simp only [State.eventDue, hreg, Bool.or_eq_false_iff] at he
      exact .inr he.2
  | reset addrsel supsel => exact deviceReset false addrsel supsel s.pending s.freeIndex
  | release hn =>
    obtain ⟨hnone, hmark⟩ := hw.active (hw.low hn)
    exact beginField (s := { s with nreset := true }) hnone hmark (hw.pending hmark) (hw.closed hnone)
      ⟨hr.follow, hr.flag⟩ false
  | fieldStart _ _ hnone => exact h.fieldStart hnone
  | waitEnds _ p w field => exact h.congr_queue (t := s.setWaiter p none) rfl (.refl _) rfl rfl |>.told (.complete .refl p .ok [field])
  | refIn _ hf => exact ⟨⟨hw.active, hw.pending, hw.snapshot, hw.closed, hw.oneApplying, hw.applying, hw.budget, hw.field,
      hw.low, hw.lines⟩, ⟨hr.follow, fun h => absurd h hf⟩⟩
  | pixel _ x y a b ha =>
    have hreg : s.timing.region = .active := by
      simp only [Timing.ahead, Bool.and_eq_true, beq_iff_eq] at ha
      exact ha.1
    exact (h.skipTo (hw.active hreg).1 x y).edge (.inl (hw.active hreg).1) a b
  | blankStart hn hreg => exact h.blankStart hn hreg hscan
  | faults => exact (h.told (told_faultsReported s)).same rfl
  | compare =>
    obtain ⟨g, v, hf⟩ := s.compared_frame
    rw [hf]
    exact h.same rfl
  | lapses _ w hwin hstage =>
    have hnot : s.someApplying = false := by
      cases ha : s.someApplying with
      | false => rfl
      | true => cases hstage.symm.trans (hw.applying w hwin ha)
    obtain ⟨pl, g, pc, bc, x, v, hf⟩ := s.lapsesCompleted_frame w.field
    rw [hf]
    exact (h.setStage hwin hnot .revocations).same rfl
  | revocations _ w hwin hstage =>
    have hnot : s.someApplying = false := by
      cases ha : s.someApplying with
      | false => rfl
      | true => cases hstage.symm.trans (hw.applying w hwin ha)
    obtain ⟨pl, g, pc, bc, v, hf⟩ := s.revocationsCompleted_frame w.field
    rw [hf]
    exact (h.setStage hwin hnot .scan).same rfl
  | scanned _ w b hwin hstage ha hb => exact h.scanBatch hwin hstage ha hb
  | scanEnds _ w hwin _ ha => exact h.setStage hwin ha .countdown
  | judged _ w b hwin => exact h.judged hwin w.field b
  | countdown _ w hwin ha => exact h.countdown ha hwin w.field
  | sealTimeout _ p b =>
    refine told ?_ (.complete .refl p _ _)
    exact h.congr_queue rfl (.modifyFirst _ (by exact fun _ => rfl) _) rfl rfl
  | leaseTick => exact ((h.tickLease 0).tickLease 1).tickLease 2
  | leaseExpiry _ p => exact h.beginLapse p .expired

end State.FieldLaws

/-- Settles O58: a window opens at line 0 of a blanking that has 4 lines at least, and closes before a field begins. -/
theorem windowAndReferenceLawsAreKept : Obligations.WindowAndReferenceLawsAreKept := by
  unfold Obligations.WindowAndReferenceLawsAreKept
  intro s t hrange hw hr hst
  have hfronted : s.fronted.FieldLaws :=
    State.FieldLaws.congr_queue (s := s) ⟨hw, hr⟩ rfl (.refl _) rfl rfl
  exact hfronted.stepTo hrange.scan (stepTo_of_step hst)

end Sys2Proof.Machine
end

section
/-! The picture, the ranges and the output (R3, R6, R16, R23, R33, R40, R60, R136). -/

namespace Sys2Proof.Machine

/-! ### The bands as an order on the Stacking List -/

/-- Where one plane stands below another, the upper one is guarded if the lower one is. -/
def Banded (guarded : Plane → Bool) (order : List Plane) : Prop :=
  order.Pairwise fun a b => guarded a = true → guarded b = true

namespace Banded

variable {guarded : Plane → Bool} {order below above rest : List Plane} {p : Plane}

theorem iff_dropWhile : Banded guarded order ↔ ∀ q ∈ order.dropWhile (fun q => !guarded q), guarded q = true := by
  induction order with
  | nil => simp [Banded]
  | cons a rest ih =>
    unfold Banded at ih ⊢
    rw [List.pairwise_cons, ih]
    cases ha : guarded a with
    | false => simp [ha]
    | true =>
      simp only [List.dropWhile_cons, ha, Bool.not_true, Bool.false_eq_true, if_false, forall_const, List.mem_cons,
        forall_eq_or_imp, true_and]
      exact ⟨fun h => h.1, fun h => ⟨h, fun q hq => h q ((List.dropWhile_sublist _).subset hq)⟩⟩

theorem erase (h : Banded guarded order) (p : Plane) : Banded guarded (order.erase p) :=
  List.Pairwise.sublist List.erase_sublist h

theorem congr {guarded' : Plane → Bool} (h : Banded guarded order) (heq : ∀ q ∈ order, guarded' q = guarded q) :
    Banded guarded' order :=
  List.Pairwise.imp_of_mem (fun ha hb hab hg => by rw [heq _ hb]; exact hab (heq _ ha ▸ hg)) h

/-- A plane comes between two parts of a banded list when it breaks no band there. -/
theorem insert (h : Banded guarded (below ++ above)) (hbelow : ∀ a ∈ below, guarded a = true → guarded p = true)
    (habove : ∀ b ∈ above, guarded p = true → guarded b = true) : Banded guarded (below ++ p :: above) := by
  obtain ⟨hb, ha, hba⟩ := List.pairwise_append.1 h
  refine List.pairwise_append.2 ⟨hb, List.pairwise_cons.2 ⟨habove, ha⟩, fun a hma b hmb => ?_⟩
  rcases List.mem_cons.1 hmb with rfl | hmb
  · exact hbelow a hma
  · exact hba a hma b hmb

theorem placeAtBorder (h : Banded guarded rest) (p : Plane) : Banded guarded (placeAtBorder guarded p rest) := by
  unfold Machine.placeAtBorder
  refine insert ?_ (fun a ha hg => ?_) fun b hb _ => iff_dropWhile.1 h b hb
  · rwa [List.takeWhile_append_dropWhile]
  · have hnot := List.all_eq_true.1 List.all_takeWhile a ha
    simp [hg] at hnot

theorem placeOrClamp (h : Banded guarded (below ++ above)) (p : Plane) :
    Banded guarded (placeOrClamp guarded p below above).1 := by
  by_cases hbreaks : BreaksBands guarded p below above
  · rw [Machine.placeOrClamp, if_pos (breaksBands_iff.1 hbreaks)]
    exact h.placeAtBorder p
  · rw [placeOrClamp_kept hbreaks]
    refine h.insert (fun a ha hg => ?_) fun b hb hg => ?_
    · refine Decidable.byContradiction fun hp => ?_
      exact hbreaks (.inl ⟨by simpa using hp, a, ha, hg⟩)
    · refine Decidable.byContradiction fun hb' => ?_
      exact hbreaks (.inr ⟨hg, b, hb, by simpa using hb'⟩)

theorem orderPlaced (h : Banded guarded order) (p : Plane) (form : OrderForm) :
    Banded guarded (orderPlaced guarded p form order).1 := by
  have hrest := h.erase p
  have hsplit : ∀ n, Banded guarded ((order.erase p).take n ++ (order.erase p).drop n) := fun n => by
    rwa [List.take_append_drop]
  cases form with
  | top =>
    simp only [Machine.orderPlaced]
    split
    · rename_i hp
      exact insert (by rwa [List.append_nil]) (fun _ _ _ => hp) fun b hb => by cases hb
    · exact hrest.placeAtBorder p
  | bottom =>
    simp only [Machine.orderPlaced]
    split
    · exact hrest.placeAtBorder p
    · rename_i hp
      exact insert (below := []) hrest (fun a ha => by cases ha) fun _ _ hg => absurd hg hp
  | above q => exact (hsplit _).placeOrClamp p
  | below q => exact (hsplit _).placeOrClamp p

end Banded

theorem placeAtBorder_perm (guarded : Plane → Bool) (p : Plane) (rest : List Plane) :
    (placeAtBorder guarded p rest).Perm (p :: rest) := by
  unfold placeAtBorder
  refine List.perm_middle.trans (.cons p ?_)
  rw [List.takeWhile_append_dropWhile]

theorem placeOrClamp_perm (guarded : Plane → Bool) (p : Plane) (below above : List Plane) :
    (placeOrClamp guarded p below above).1.Perm (p :: (below ++ above)) := by
  by_cases hbreaks : BreaksBands guarded p below above
  · rw [placeOrClamp, if_pos (breaksBands_iff.1 hbreaks)]
    exact placeAtBorder_perm guarded p _
  · rw [placeOrClamp_kept hbreaks]
    exact List.perm_middle

/-- An ORDER edit moves its plane and keeps every other. -/
theorem orderPlaced_perm {guarded : Plane → Bool} {p : Plane} {order : List Plane} (hp : p ∈ order) (form : OrderForm) :
    (orderPlaced guarded p form order).1.Perm order := by
  refine List.Perm.trans ?_ (List.perm_cons_erase hp).symm
  have hsplit : ∀ n, (placeOrClamp guarded p ((order.erase p).take n) ((order.erase p).drop n)).1.Perm
      (p :: order.erase p) := fun n => by
    have h := placeOrClamp_perm guarded p ((order.erase p).take n) ((order.erase p).drop n)
    rwa [List.take_append_drop] at h
  cases form with
  | top =>
    simp only [orderPlaced]
    split
    · exact List.perm_append_singleton p _
    · exact placeAtBorder_perm guarded p _
  | bottom =>
    simp only [orderPlaced]
    split
    · exact placeAtBorder_perm guarded p _
    · exact .refl _
  | above q => exact hsplit _
  | below q => exact hsplit _

/-! ### What every Live State and every working copy keeps -/

/-- The Stacking List in its bands, the run counts within their limits, the Palette Store in canonical form, and the pending
Scan Record in range: what the edits of a batch keep one by one. -/
structure Live.Sound (l : Live) : Prop where
  order : l.order.Perm allPlanes
  bands : Banded l.isGuarded l.order
  runs : ∀ (p : Plane) (r : GuardRecord), l.guards[p] = some r → r.runCount ≤ r.limit
  palette : Memory.wf l.palette = true
  pendingScan : l.pendingScan.inRange

theorem ScanEdit.apply_inRange {e : ScanEdit} {r : ScanRecord} (he : e.inRange) (hr : r.inRange) :
    (e.apply r).inRange := by
  have hfield : ∀ {lo hi n : Nat} {o : Option Nat}, optionIn lo hi o → lo ≤ n → n ≤ hi → lo ≤ o.getD n ∧ o.getD n ≤ hi := by
    intro lo hi n o ho hlo hhi
    cases o with
    | none => exact ⟨hlo, hhi⟩
    | some k => exact ho
  obtain ⟨hwidth, hheight, hhblank, hvblank, hloss⟩ := he
  obtain ⟨w, w', h, h', b, b', v, v', m, m'⟩ := hr
  obtain ⟨w, w'⟩ := hfield hwidth w w'
  obtain ⟨h, h'⟩ := hfield hheight h h'
  obtain ⟨b, b'⟩ := hfield hhblank b b'
  obtain ⟨v, v'⟩ := hfield hvblank v v'
  obtain ⟨m, m'⟩ := hfield hloss m m'
  exact ⟨w, w', h, h', b, b', v, v', m, m'⟩

namespace Live.Sound

variable {l : Live}

theorem setGuard_runs (h : l.Sound) (p : Plane) {o : Option GuardRecord} (ho : ∀ r, o = some r → r.runCount ≤ r.limit)
    (q : Plane) (r : GuardRecord) (hr : (l.setGuard p o).guards[q] = some r) : r.runCount ≤ r.limit := by
  simp only [Live.setGuard, Fin.getElem_fin, Vector.getElem_set] at hr
  split at hr
  · exact ho r hr
  · exact h.runs q r hr

theorem setGuarded (h : l.Sound) (p : Plane) : (l.setGuarded p).Sound := by
  cases hp : l.isGuarded p with
  | true => rwa [Live.setGuarded_of_guarded hp]
  | false =>
    rw [Live.setGuarded_of_unguarded hp]
    have hguarded : ∀ q ∈ l.order.erase p, (l.setGuard p (some .fresh)).isGuarded q = l.isGuarded q := fun q hq => by
      rw [Live.isGuarded_setGuard, if_neg ((mem_erase_of_perm_allPlanes h.order).1 hq)]
    have hrest : Banded (l.setGuard p (some .fresh)).isGuarded (l.order.erase p ++ []) := by
      rw [List.append_nil]
      exact (h.bands.erase p).congr hguarded
    refine ⟨?_, ?_, h.setGuard_runs p (by rintro r ⟨rfl⟩; decide), h.palette, h.pendingScan⟩
    · exact ((List.perm_append_singleton p _).trans
        (List.perm_cons_erase (h.order.mem_iff.2 (mem_allPlanes p))).symm).trans h.order
    · exact hrest.insert (fun _ _ _ => by simp) fun b hb => by cases hb

theorem clearGuarded (h : l.Sound) (p : Plane) : (l.clearGuarded p).Sound := by
  cases hp : l.isGuarded p with
  | false => rwa [Live.clearGuarded_of_unguarded hp]
  | true =>
    rw [Live.clearGuarded_of_guarded hp]
    have hbands : Banded (l.setGuard p none).isGuarded (l.order.erase p) :=
      (h.bands.erase p).congr fun q hq => Live.isGuarded_setGuard_none_of_mem h.order hq
    split
    · refine ⟨?_, hbands.placeAtBorder p, h.setGuard_runs p (by simp), h.palette, h.pendingScan⟩
      exact ((placeAtBorder_perm _ p _).trans
        (List.perm_cons_erase (h.order.mem_iff.2 (mem_allPlanes p))).symm).trans h.order
    · rename_i hnone
      refine ⟨h.order, ?_, h.setGuard_runs p (by simp), h.palette, h.pendingScan⟩
      simp only [List.any_eq_true, not_exists, not_and] at hnone
      exact List.pairwise_of_forall fun a _ ha => absurd ha (hnone a (mem_allPlanes a))

theorem edit {w : Work} (h : w.live.Sound) (i : Nat) {e : Edit} (he : e.wf) : (w.edit i e).live.Sound := by
  cases e with
  | plane e => exact ⟨h.order, h.bands, h.runs, h.palette, h.pendingScan⟩
  | colours bank first cs =>
    obtain ⟨-, -, -, hlast⟩ := he
    have hcells : paletteCell bank first + cs.length ≤ 1024 := by
      unfold paletteCell
      omega
    exact ⟨h.order, h.bands, h.runs, Memory.wf_writes h.palette _ cs hcells, h.pendingScan⟩
  | order p form =>
    exact ⟨(orderPlaced_perm (h.order.mem_iff.2 (mem_allPlanes p)) form).trans h.order, h.bands.orderPlaced p form, h.runs,
      h.palette, h.pendingScan⟩
  | signature p expected limit action =>
    simp only [Work.edit]
    split
    · rename_i r hr
      refine ⟨h.order, h.bands.congr fun q _ => ?_, h.setGuard_runs p ?_, h.palette, h.pendingScan⟩
      · rw [Live.isGuarded_setGuard]
        split
        · rename_i hq
          rw [hq, Live.isGuarded, hr]
          rfl
        · rfl
      · rintro _ ⟨rfl⟩
        exact Nat.zero_le _
    · exact h
  | guard p set =>
    cases set with
    | true => exact h.setGuarded p
    | false => exact h.clearGuarded p
  | scan e => exact ⟨h.order, h.bands, h.runs, h.palette, ScanEdit.apply_inRange he.2 h.pendingScan⟩

theorem workOf (h : l.Sound) {edits : List Edit} (he : ∀ e ∈ edits, e.wf) : (workOf l edits).live.Sound :=
  Work.edits_keeps (P := fun w => w.live.Sound) (fun _ i e hm h => h.edit i (he e hm)) 1 h

end Live.Sound

/-! ### The rectangles -/

/-- The edit writes the plane's rectangle. -/
def Edit.writesRect (p : Plane) : Edit → Prop
  | .plane e => e.plane = p ∧ e.rect.isSome = true
  | .colours _ _ _ | .order _ _ | .signature _ _ _ _ | .guard _ _ | .scan _ => False

theorem Work.edit_rect (w : Work) (i : Nat) (e : Edit) (p : Plane) :
    (w.edit i e).live.planes[p].rect = w.live.planes[p].rect ∨ e.writesRect p := by
  cases e with
  | plane e =>
    simp only [Work.edit, Live.setPlane, Fin.getElem_fin, Vector.getElem_set]
    split
    · rename_i hp
      have hp : e.plane = p := Fin.ext hp
      subst hp
      cases hr : e.rect with
      | none => exact .inl (by simp [PlaneEdit.apply, hr])
      | some r => exact .inr ⟨rfl, by simp [hr]⟩
    · exact .inl rfl
  | colours bank first cs => exact .inl rfl
  | order p form => exact .inl rfl
  | signature p expected limit action =>
    left
    cases hg : w.live.guards[p] <;> simp only [Work.edit, hg, Live.setGuard]
  | guard q set =>
    cases set with
    | true =>
      obtain ⟨o, g, hl⟩ := w.live.setGuarded_scans q
      simp only [Work.edit, hl]
      exact .inl trivial
    | false =>
      obtain ⟨o, g, hl⟩ := w.live.clearGuarded_scans q
      simp only [Work.edit, hl]
      exact .inl trivial
  | scan e => exact .inl rfl

/-- A rectangle of the working copy stands as it stood in the Live State, or an edit of the batch has written it. -/
theorem workOf_rect (l : Live) (edits : List Edit) (p : Plane) :
    (workOf l edits).live.planes[p].rect = l.planes[p].rect ∨ ∃ e ∈ edits, e.writesRect p := by
  refine Work.edits_keeps
    (P := fun w => w.live.planes[p].rect = l.planes[p].rect ∨ ∃ e ∈ edits, e.writesRect p) (fun w i e hm h => ?_) 1 (.inl rfl)
  rcases w.edit_rect i e p with he | he
  · rw [he]
    exact h
  · exact .inr ⟨e, hm, he⟩

theorem Verdict.orElse_eq_pass {a b : Verdict} : a.orElse b = .pass ↔ a = .pass ∧ b = .pass := by
  cases a <;> simp [Verdict.orElse]

/-- What a batch that passes validation has passed (Table 5.3). -/
theorem validate_eq_pass {s : State} {p : Port} {edits : List Edit} {w : Work} :
    validate s p edits w = .pass ↔
      judgeOwner s p edits = .pass ∧ judgeRect w.live edits = .pass ∧ judgeBank s w.live edits = .pass
        ∧ judgeGuards w = .pass ∧ judgeSigned w = .pass := by
  simp only [validate, Verdict.orElse_eq_pass]

theorem rect_valid_of_judgeRect {l : Live} {edits : List Edit} (h : judgeRect l edits = .pass) {e : Edit} (he : e ∈ edits)
    {p : Plane} (hw : e.writesRect p) : l.planes[p].rect.valid = true := by
  unfold judgeRect at h
  split at h
  · cases h
  · rename_i hnone
    have hbad := firstOfLasts_eq_none.1 hnone e he
    cases e with
    | plane e =>
      obtain ⟨rfl, hr⟩ := hw
      simpa [badRectPlane, hr] using hbad
    | colours | order | signature | guard | scan => cases hw

theorem guardCount_of_judgeGuards {w : Work} (h : judgeGuards w = .pass) : w.live.guardCount ≤ 4 := by
  unfold judgeGuards at h
  split at h
  · cases h
  · exact Nat.le_of_not_lt ‹_›

/-! ### The picture -/

/-- The law of the picture, with the pending Scan Record in range. -/
structure Live.Picture (l : Live) : Prop where
  sound : l.Sound
  guards : l.guardCount ≤ 4
  rects : ∀ p : Plane, l.planes[p].rect.valid = true

theorem pictureLaw_iff {s : State} : PictureLaw s ∧ s.live.pendingScan.inRange ↔ s.live.Picture :=
  ⟨fun ⟨h, hs⟩ => ⟨⟨h.order, Banded.iff_dropWhile.2 h.bands, h.runs, h.palette, hs⟩, h.guards, h.rects⟩,
    fun ⟨h, hg, hr⟩ => ⟨⟨h.order, Banded.iff_dropWhile.1 h.bands, hg, hr, h.runs, h.palette⟩, h.pendingScan⟩⟩

/-- A change of guard records that keeps a run count within its limit. -/
def GuardRecord.KeepsRuns (f : GuardRecord → GuardRecord) : Prop :=
  ∀ r, r.runCount ≤ r.limit → (f r).runCount ≤ (f r).limit

theorem GuardRecord.keepsRuns_disarm : GuardRecord.KeepsRuns .disarm := fun _ h => h

theorem GuardRecord.keepsRuns_folded (x y : Nat) (c : Colour) : GuardRecord.KeepsRuns (.folded x y c) := by
  intro r h
  unfold GuardRecord.folded
  split
  · split <;> exact h
  · exact h

theorem GuardRecord.ended_runs (r : GuardRecord) : r.ended.runCount = r.runCount ∧ r.ended.limit = r.limit := by
  unfold GuardRecord.ended
  split
  · split <;> exact ⟨rfl, rfl⟩
  · exact ⟨rfl, rfl⟩

theorem GuardRecord.keepsRuns_judged (firstField : Bool) : GuardRecord.KeepsRuns (.judged · firstField) := by
  intro r h
  obtain ⟨hruns, hlimit⟩ := r.ended_runs
  simp only [GuardRecord.judged]
  split
  · split
    · exact Nat.zero_le _
    · simp only [hlimit]
      split <;> omega
  · simp only [hruns, hlimit]
    exact h

namespace Live.Picture

variable {l l' : Live}

/-- The picture is kept by what changes planes but not their rectangles, and guard records without giving or taking one. -/
theorem congr (h : l.Picture) (horder : l'.order = l.order) (hpalette : l'.palette = l.palette)
    (hscan : l'.pendingScan.inRange) (hrect : ∀ p : Plane, l'.planes[p].rect = l.planes[p].rect)
    (hguards : ∀ p : Plane, ∃ f, GuardRecord.KeepsRuns f ∧ l'.guards[p] = l.guards[p].map f) : l'.Picture := by
  obtain ⟨hs, hg, hr⟩ := h
  have hguarded : l'.isGuarded = l.isGuarded := by
    funext p
    obtain ⟨f, -, hf⟩ := hguards p
    rw [Live.isGuarded, hf, Option.isSome_map]
    rfl
  refine ⟨⟨horder ▸ hs.order, ?_, fun p r hp => ?_, hpalette ▸ hs.palette, hscan⟩, ?_, fun p => ?_⟩
  · rw [hguarded, horder]
    exact hs.bands
  · obtain ⟨f, hf, he⟩ := hguards p
    obtain ⟨r', hr', rfl⟩ := Option.map_eq_some_iff.1 (he.symm.trans hp)
    exact hf r' (hs.runs p r' hr')
  · rw [Live.guardCount, hguarded]
    exact hg
  · rw [hrect]
    exact hr p

/-- One guard record is changed. -/
theorem guardChanged (h : l.Picture) (q : Plane) {f : GuardRecord → GuardRecord} (hf : GuardRecord.KeepsRuns f)
    (horder : l'.order = l.order) (hpalette : l'.palette = l.palette) (hscan : l'.pendingScan = l.pendingScan)
    (hrect : ∀ p : Plane, l'.planes[p].rect = l.planes[p].rect) (hguards : l'.guards = l.guards.set q (l.guards[q].map f)) :
    l'.Picture := by
  refine h.congr horder hpalette (hscan ▸ h.sound.pendingScan) hrect fun p => ?_
  rw [hguards]
  simp only [Fin.getElem_fin, Vector.getElem_set]
  split
  · rename_i hp
    have hp : q = p := Fin.ext hp
    subst hp
    exact ⟨f, hf, rfl⟩
  · exact ⟨id, fun _ h => h, by simp⟩

theorem setRect_eq (l : Live) (q : Plane) {r : PlaneRecord} (hr : r.rect = l.planes[q].rect) (p : Plane) :
    (l.planes.set q r)[p].rect = l.planes[p].rect := by
  simp only [Fin.getElem_fin, Vector.getElem_set]
  split
  · rename_i hp
    have hp : q = p := Fin.ext hp
    subst hp
    exact hr
  · rfl

theorem takeDown (h : l.Picture) (q : Plane) : (l.takeDown q).Picture :=
  h.guardChanged q GuardRecord.keepsRuns_disarm rfl rfl rfl (setRect_eq l q rfl) rfl

theorem disarm (h : l.Picture) (q : Plane) : (l.disarm q).Picture :=
  h.guardChanged q GuardRecord.keepsRuns_disarm rfl rfl rfl (fun _ => rfl) rfl

theorem judgedGuard (h : l.Picture) {q : Plane} {r : GuardRecord} (hr : l.guards[q] = some r) (firstField : Bool) :
    (l.setGuard q (some (r.judged firstField))).Picture :=
  h.guardChanged q (GuardRecord.keepsRuns_judged firstField) rfl rfl rfl (fun _ => rfl) (by rw [hr]; rfl)

theorem latchGuards (h : l.Picture) : l.latchGuards.Picture := by
  unfold Live.latchGuards
  refine h.congr rfl rfl h.sound.pendingScan (fun _ => rfl) fun p => ⟨fun r => r.atFieldStart l.planes[p] l.scan, ?_, ?_⟩
  · exact fun _ h => h
  · simp

theorem foldPixel (h : l.Picture) (x y : Nat) (c : Colour) : (l.foldPixel x y c).Picture := by
  unfold Live.foldPixel
  refine h.congr rfl rfl h.sound.pendingScan (fun _ => rfl) fun p =>
    ⟨GuardRecord.folded x y c, GuardRecord.keepsRuns_folded x y c, ?_⟩
  simp

theorem workOf (h : l.Picture) {s : State} {p : Port} {edits : List Edit} (he : ∀ e ∈ edits, e.wf)
    (hpass : validate s p edits (workOf l edits) = .pass) : (workOf l edits).live.Picture := by
  obtain ⟨-, hrect, -, hguards, -⟩ := validate_eq_pass.1 hpass
  refine ⟨h.sound.workOf he, guardCount_of_judgeGuards hguards, fun q => ?_⟩
  rcases workOf_rect l edits q with hq | ⟨e, hm, hw⟩
  · rw [hq]
    exact h.rects q
  · exact rect_valid_of_judgeRect hrect hm hw

end Live.Picture

end Sys2Proof.Machine
end

section
/-! Every step keeps the picture, the ranges and the output. -/

namespace Sys2Proof.Machine

/-! ### Edits staged and queued (R60) -/

/-- Every edit staged or queued is well formed. -/
def State.EditsWf (s : State) : Prop :=
  (∀ p : Port, ∀ e ∈ (s.staged p).list, e.wf) ∧ ∀ b ∈ s.queue, ∀ e ∈ b.edits, e.wf

namespace State.EditsWf

variable {s t : State}

theorem of_shrinks (h : s.EditsWf) (hq : Shrinks s.queue t.queue) (hs : s.StagesKept t) : t.EditsWf := by
  obtain ⟨hstaged, hqueued⟩ := h
  refine ⟨fun p => ?_, fun b hb => ?_⟩
  · rcases hs p with hp | hp <;> rw [hp]
    · exact hstaged p
    · exact fun e he => by cases he
  · obtain ⟨b', hb', hkey⟩ := List.mem_map.1 (List.Sublist.subset hq (List.mem_map_of_mem (f := Batch.key) hb))
    have hedits : b'.edits = b.edits := congrArg (·.2.2.2) hkey
    rw [← hedits]
    exact hqueued b' hb'

theorem acted {p : Port} {r : Reply × State} (h : s.EditsWf) (ha : Acted p s r) : r.2.EditsWf := by
  obtain ⟨hstaged, hqueued⟩ := h
  have h : s.EditsWf := ⟨hstaged, hqueued⟩
  cases ha with
  | attached | detached | emptied => exact h.of_shrinks (.refl _) (s.stagesKept_emptied p)
  | lapsed k out q cause =>
    refine h.of_shrinks (s.beginLapse_shrinks q cause) ?_
    obtain ⟨c, x, v, e, w, hf⟩ := s.beginLapse_frame q cause
    rw [hf]
    exact s.stagesKept_emptied q
  | claimed k out r => cases r <;> exact h
  | released k out r => cases r <;> exact h
  | revoked k out r => cases r <;> exact h
  | staged k out e payload hs hwf =>
    refine ⟨fun q e' he' => ?_, hqueued⟩
    rw [State.setStaged_staged] at he'
    split at he'
    · rcases List.mem_append.1 he' with he' | he'
      · exact hstaged p e' he'
      · rwa [List.mem_singleton.1 he']
    · exact hstaged q e' he'
  | sealed reply a =>
    refine ⟨fun q e' he' => ?_, fun b hb => ?_⟩
    · have hst : (s.sealed p (sealedBatch p a s)).staged q = if q = p then .empty else s.staged q :=
        State.setStaged_staged s p .empty q
      rw [hst] at he'
      split at he'
      · cases he'
      · exact hstaged q e' he'
    · rcases List.mem_append.1 hb with hb | hb
      · exact hqueued b hb
      · rw [List.mem_singleton.1 hb]
        exact hstaged p
  | withdrawn => exact h.of_shrinks (.of_sublist List.eraseP_sublist) s.stagesKept_refl
  | answered | freeValues | waits | delivered => exact h

theorem portPath {p : Port} {n : Nat} (h : s.EditsWf) (hp : PortPath p s n t) : t.EditsWf := by
  refine hp.keeps h (fun _ _ h => h) (fun u h => ?_) fun _ _ h ha => h.acted ha
  rw [State.restartLease_eq]
  exact h

theorem stepTo (h : s.EditsWf) (hst : StepTo s t) : t.EditsWf := by
  rcases hst.shrinks with ⟨p, hp⟩ | hq
  · exact h.portPath hp
  · rcases hst.stagesKept with ⟨p, hp⟩ | hs
    · exact h.portPath hp
    · exact h.of_shrinks hq hs

end State.EditsWf

/-! ### The Live State -/

/-- The end of a session writes the session and the Notice Queue of its port, and then tells the ports. -/
theorem told_lapseSession (s : State) (p : Port) (field : Byte) :
    Told ((s.setSession p { s.session p with state := .detached, inLapseSet := false }).setNotices p .empty)
      (s.lapseSession p field) := by
  have hposted : Told ((s.setSession p { s.session p with state := .detached, inLapseSet := false }).setNotices p .empty)
      (((s.setSession p { s.session p with state := .detached, inLapseSet := false }).setNotices p .empty).post p
        (sessionEnded field p (s.session p))) := .post .refl p _
  unfold State.lapseSession
  simp only
  split
  · exact hposted
  · exact hposted.trans (told_postSupervisor _ _)

/-- The picture, and the Scan Record in force in range. -/
def State.Drawn (s : State) : Prop := s.live.Picture ∧ s.live.scan.inRange

namespace State.Drawn

variable {s t : State}

theorem congr (h : s.Drawn) (hlive : t.live = s.live) : t.Drawn := by
  rw [State.Drawn, hlive]
  exact h

theorem told (h : s.Drawn) (ht : Told s t) : t.Drawn := h.congr ht.live

theorem beginLapse (h : s.Drawn) (p : Port) (cause : LapseCause) : (s.beginLapse p cause).Drawn := by
  obtain ⟨c, x, v, e, w, hf⟩ := s.beginLapse_frame p cause
  rw [hf]
  exact h

theorem tickLease (h : s.Drawn) (p : Port) : (s.tickLease p).Drawn := by
  rcases s.tickLease_cases p with ⟨-, ht⟩ | ⟨-, -, ht⟩ | ht <;> rw [ht]
  · exact h.beginLapse p .expired
  · exact h
  · exact h

theorem acted {p : Port} {r : Reply × State} (h : s.Drawn) (ha : Acted p s r) : r.2.Drawn := by
  cases ha with
  | lapsed k out q cause => exact h.beginLapse q cause
  | claimed k out r => cases r <;> exact h
  | released k out r =>
    cases r with
    | plane q => exact ⟨h.1.disarm q, h.2⟩
    | bank b => exact h
  | revoked k out r => cases r <;> exact h
  | _ => exact h

theorem portPath {p : Port} {n : Nat} (h : s.Drawn) (hp : PortPath p s n t) : t.Drawn := by
  refine hp.keeps h (fun _ _ h => h) (fun u h => ?_) fun _ _ h ha => h.acted ha
  rw [State.restartLease_eq]
  exact h

theorem edge (h : s.Drawn) (a b : Sample) : (s.edge a b).Drawn := by
  cases hdue : s.sampleDue with
  | true =>
    rw [State.edge_of_sampleDue hdue]
    exact ⟨h.1.foldPixel _ _ _, h.2⟩
  | false =>
    rw [State.edge_of_not_sampleDue hdue]
    exact h

theorem beginField (h : s.Drawn) (newScan : Bool) : (s.beginField newScan).Drawn := by
  unfold State.beginField
  exact ⟨h.1.latchGuards, h.2⟩

theorem fieldStart (h : s.Drawn) (newScan : Bool) : (s.endBlanking.takeScan.beginField newScan).Drawn := by
  refine beginField ?_ newScan
  obtain ⟨v, hf⟩ := s.takeScan_endBlanking_frame
  rw [hf]
  split
  · obtain ⟨⟨hs, hg, hr⟩, -⟩ := h
    exact ⟨⟨⟨hs.order, hs.bands, hs.runs, hs.palette, hs.pendingScan⟩, hg, hr⟩, hs.pendingScan⟩
  · exact h

theorem comparePlane (h : s.Drawn) (q : Plane) : (s.comparePlane q).Drawn := by
  unfold State.comparePlane
  split
  · exact h
  · rename_i r hr
    refine told ?_ (told_postComparison _ q r)
    exact ⟨h.1.judgedGuard hr _, h.2⟩

theorem compared (h : s.Drawn) : s.compared.Drawn :=
  foldl_keeps (P := State.Drawn) (f := State.comparePlane) (fun _ q h => h.comparePlane q) allPlanes h

theorem takeDownPlanes (s : State) (p : Port) (planes : List Plane) {l : Live} (h : l.Picture) (hscan : l.scan.inRange) :
    (takeDownPlanes s p l planes).Picture ∧ (Machine.takeDownPlanes s p l planes).scan.inRange := by
  induction planes generalizing l with
  | nil => exact ⟨h, hscan⟩
  | cons q rest ih =>
    unfold Machine.takeDownPlanes
    split
    · exact ih (h.takeDown q) hscan
    · exact ih h hscan

theorem completeLapse (h : s.Drawn) (field : Byte) (p : Port) : (s.completeLapse field p).Drawn := by
  unfold State.completeLapse
  split
  · refine told ?_ (told_lapseSession _ p field)
    exact takeDownPlanes s p allPlanes h.1 h.2
  · exact h

theorem lapsesCompleted (h : s.Drawn) (field : Byte) : (s.lapsesCompleted field).Drawn := by
  unfold State.lapsesCompleted
  exact ((h.completeLapse field 0).completeLapse field 1).completeLapse field 2

theorem revokePlane (h : s.Drawn) (field : Byte) (q : Plane) : (State.revokePlane field s q).Drawn := by
  unfold State.revokePlane
  split
  · refine told ?_ (.post .refl _ _)
    exact ⟨h.1.takeDown q, h.2⟩
  · exact h
  · exact h

theorem unnamed_rect (s : State) (p : Port) (b : Bank) (q : Plane) : (unnamed s p b q).rect = s.live.planes[q].rect := by
  simp only [unnamed]
  split <;> rfl

theorem revokeBank (h : s.Drawn) (field : Byte) (b : Bank) : (State.revokeBank field s b).Drawn := by
  unfold State.revokeBank
  split
  · rename_i p _
    refine told ?_ (.post .refl _ _)
    refine ⟨h.1.congr rfl rfl h.1.sound.pendingScan (fun q => ?_) fun q => ⟨id, fun _ h => h, by simp⟩, h.2⟩
    rw [← unnamed_rect s p b q]
    simp
  · exact h
  · exact h

theorem revocationsCompleted (h : s.Drawn) (field : Byte) : (s.revocationsCompleted field).Drawn :=
  foldl_keeps (P := State.Drawn) (f := State.revokeBank field) (fun _ b h => h.revokeBank field b) allBanks
    (foldl_keeps (P := State.Drawn) (f := State.revokePlane field) (fun _ q h => h.revokePlane field q) allPlanes h)

theorem judged (h : s.Drawn) (field : Byte) {b : Batch} (he : ∀ e ∈ b.edits, e.wf) : (s.judged field b).Drawn := by
  rcases s.judged_cases field b with ⟨hpass, ht⟩ | ht
  · refine told ?_ ht
    refine ⟨h.1.workOf he hpass, ?_⟩
    rw [(workOf_scansFollow s.live b.edits).scan]
    exact h.2
  · refine told ?_ ht
    exact h

theorem deviceReset (nreset addrsel : Bool) (supsel : BitVec 2) (pending : List Instr) :
    (State.deviceReset nreset addrsel supsel pending).Drawn := by
  have hplane : ∀ p : Plane, Live.reset.planes[p].rect.valid = true := by decide
  have hguard : ∀ p : Plane, Live.reset.guards[p] = none := by decide
  have hscan : Live.reset.scan.inRange ∧ Live.reset.pendingScan.inRange := by
    unfold ScanRecord.inRange
    decide
  have hruns : ∀ (p : Plane) (r : GuardRecord), Live.reset.guards[p] = some r → r.runCount ≤ r.limit := fun p r h => by
    cases (hguard p).symm.trans h
  have hbands : Banded Live.reset.isGuarded Live.reset.order := Banded.iff_dropWhile.2 (by decide)
  have hsound : Live.reset.Sound := ⟨by decide, hbands, hruns, rfl, hscan.2⟩
  exact ⟨⟨hsound, (by decide : Live.reset.guardCount ≤ 4), hplane⟩, hscan.1⟩

theorem stepTo (h : s.Drawn) (he : s.EditsWf) (hst : StepTo s t) : t.Drawn := by
  cases hst with
  | stays => exact h
  | port p hp => exact h.portPath hp
  | idle => exact h.edge _ _
  | reset addrsel supsel => exact deviceReset false addrsel supsel s.pending
  | release => exact beginField (s := { s with nreset := true }) h false
  | fieldStart => exact fieldStart (s := { s with compose := { s.compose with pipe := .lineEnd true } }) h _
  | waitEnds _ p w field => exact told (s := s.setWaiter p none) h (.complete .refl p .ok [field])
  | refIn => exact h
  | pixel _ x y a b => exact edge (s := s.skipTo x y) h a b
  | blankStart => exact h
  | faults => exact (h.told (told_faultsReported s)).congr rfl
  | compare => exact h.compared.congr (by dsimp only)
  | lapses _ w => exact (h.lapsesCompleted w.field).congr (by dsimp only)
  | revocations _ w => exact (h.revocationsCompleted w.field).congr (by dsimp only)
  | scanned _ w b =>
    obtain ⟨q, w', c, x, v, e, hf⟩ := s.scanBatch_frame w b
    rw [hf]
    exact h
  | scanEnds => exact h
  | judged _ w b _ hb => exact h.judged w.field (he.2 b (List.mem_of_find?_eq_some hb))
  | countdown => exact h
  | sealTimeout _ p b =>
    refine told ?_ (.complete .refl p _ _)
    exact h
  | leaseTick => exact ((h.tickLease 0).tickLease 1).tickLease 2
  | leaseExpiry _ p => exact h.beginLapse p .expired

end State.Drawn

/-! ### The output -/

/-- What the law of the output reads. -/
def State.outputPart (s : State) :=
  (s.compose.pipe, s.timing.region, s.timing.line, s.timing.pixel, s.live.scan, s.nreset)

namespace OutputLaw

variable {s t : State}

theorem congr (h : OutputLaw s) (hpart : t.outputPart = s.outputPart) : OutputLaw t := by
  simp only [State.outputPart, Prod.mk.injEq] at hpart
  obtain ⟨pipe, region, line, pixel, scan, nreset⟩ := hpart
  obtain ⟨hwords, hdue, hlow⟩ := h
  refine ⟨pipe ▸ hwords, ?_, ?_⟩
  · rw [pipe, hdue, State.sampleDue, State.sampleDue, region, line, pixel, scan]
  · rw [pipe, nreset]
    exact hlow

theorem told (h : OutputLaw s) (ht : Told s t) : OutputLaw t := by
  obtain ⟨c, x, v, e, rfl⟩ := ht.frame
  exact h.congr rfl

theorem beginLapse (h : OutputLaw s) (p : Port) (cause : LapseCause) : OutputLaw (s.beginLapse p cause) := by
  obtain ⟨c, x, v, e, w, hf⟩ := s.beginLapse_frame p cause
  rw [hf]
  exact h.congr rfl

theorem tickLease (h : OutputLaw s) (p : Port) : OutputLaw (s.tickLease p) := by
  rcases s.tickLease_cases p with ⟨-, ht⟩ | ⟨-, -, ht⟩ | ht <;> rw [ht]
  · exact h.beginLapse p .expired
  · exact h.congr rfl
  · exact h

theorem acted {p : Port} {r : Reply × State} (h : OutputLaw s) (ha : Acted p s r) : OutputLaw r.2 := by
  cases ha with
  | lapsed k out q cause => exact h.beginLapse q cause
  | claimed k out r => cases r <;> exact h.congr rfl
  | released k out r => cases r <;> exact h.congr rfl
  | revoked k out r => cases r <;> exact h.congr rfl
  | _ => exact h.congr rfl

/-- After the end of a line, in which no sample was due, none is due and nothing is marked. -/
theorem of_lineEnd {vs : Bool} (hpipe : t.compose.pipe = .lineEnd vs) (hdue : t.sampleDue = false) : OutputLaw t := by
  refine ⟨?_, ?_, ?_⟩
  · rw [hpipe]
    simp [OutPipe.lineEnd]
  · rw [hpipe, hdue]
    rfl
  · rw [hpipe]
    exact fun _ => rfl

theorem fieldStart (s : State) (newScan : Bool) :
    OutputLaw ({ s with compose := { s.compose with pipe := .lineEnd true } }.endBlanking.takeScan.beginField newScan) := by
  obtain ⟨v, hf⟩ :=
    State.takeScan_endBlanking_frame { s with compose := { s.compose with pipe := .lineEnd true } }
  rw [hf]
  refine of_lineEnd (vs := true) ?_ ?_
  · simp only [State.beginField]
    split <;> rfl
  · simp [State.beginField, State.sampleDue, Timing.startField]

theorem stepTo (h : OutputLaw s) (hr : RangeLaw s) (hst : StepTo s t) : OutputLaw t := by
  cases hst with
  | stays => exact h
  | port p hp =>
    refine hp.keeps h (fun _ _ h => h.congr rfl) (fun u h => ?_) fun _ _ h ha => h.acted ha
    rw [State.restartLease_eq]
    exact h.congr rfl
  | idle hn => exact h.edge hr hn _ _
  | reset addrsel supsel =>
    refine ⟨?_, by rfl, fun _ => rfl⟩
    simp [State.deviceReset, Compose.reset, OutWord.low]
  | release hn => exact h.beginField hn false
  | fieldStart => exact fieldStart s _
  | waitEnds _ p w field =>
    refine told ?_ (.complete (.refl (s := s.setWaiter p none)) p .ok [field])
    exact h.congr rfl
  | refIn => exact h.congr rfl
  | pixel hn x y a b ha hx hy =>
    have hrange : RangeLaw (s.skipTo x y) := ⟨hr.staged, hr.queued, hr.scan, hr.pendingScan⟩
    exact (h.skipTo hn ha hx hy).edge hrange hn a b
  | blankStart => exact of_lineEnd (vs := false) rfl (by simp [State.sampleDue])
  | faults => exact (h.told (told_faultsReported s)).congr rfl
  | compare =>
    obtain ⟨g, v, hf⟩ := s.compared_frame
    rw [hf]
    exact h.congr rfl
  | lapses _ w =>
    obtain ⟨pl, g, pc, bc, x, v, hf⟩ := s.lapsesCompleted_frame w.field
    rw [hf]
    exact h.congr rfl
  | revocations _ w =>
    obtain ⟨pl, g, pc, bc, v, hf⟩ := s.revocationsCompleted_frame w.field
    rw [hf]
    exact h.congr rfl
  | scanned _ w b =>
    obtain ⟨q, w', c, x, v, e, hf⟩ := s.scanBatch_frame w b
    rw [hf]
    exact h.congr rfl
  | scanEnds => exact h.congr rfl
  | judged _ w b =>
    rcases s.judged_cases w.field b with ⟨-, ht⟩ | ht
    · refine told ?_ ht
      refine h.congr ?_
      simp only [State.outputPart, (workOf_scansFollow s.live b.edits).scan]
    · refine told ?_ ht
      exact h.congr rfl
  | countdown => exact h.congr rfl
  | sealTimeout _ p b =>
    refine told ?_ (.complete .refl p _ _)
    exact h.congr rfl
  | leaseTick => exact ((h.tickLease 0).tickLease 1).tickLease 2
  | leaseExpiry _ p => exact h.beginLapse p .expired

end OutputLaw

/-- Settles O54: a batch's edits keep the picture one by one but for the rectangles and the number of guards, which
validation judges. -/
theorem pictureAndRangesAreKept : Obligations.PictureAndRangesAreKept := by
  unfold Obligations.PictureAndRangesAreKept
  intro s t hp hr ho hst
  have hst := stepTo_of_step hst
  have hedits : s.fronted.EditsWf := ⟨hr.staged, hr.queued⟩
  have hrange : RangeLaw s.fronted := ⟨hr.staged, hr.queued, hr.scan, hr.pendingScan⟩
  have hlive : s.live.Picture := pictureLaw_iff.1 ⟨hp, hr.pendingScan⟩
  have hdrawn : s.fronted.Drawn := ⟨hlive, hr.scan⟩
  have hout : OutputLaw s.fronted := ho.congr rfl
  obtain ⟨hpicture, hscan⟩ := hdrawn.stepTo hedits hst
  obtain ⟨hlaw, hpending⟩ := pictureLaw_iff.2 hpicture
  obtain ⟨hstaged, hqueued⟩ := hedits.stepTo hst
  exact ⟨hlaw, ⟨hstaged, hqueued, hscan, hpending⟩, hout.stepTo hrange hst⟩

end Sys2Proof.Machine
end

section
/-! Ownership (R2, R101, R118). -/

namespace Sys2Proof.Machine

/-! ### Planes taken down, and the completion of one lapse or revocation -/

@[simp] theorem Live.takeDown_planes (l : Live) (p q : Plane) :
    (l.takeDown p).planes[q] = if q = p then { l.planes[q] with enabled := false } else l.planes[q] := by
  simp only [Live.takeDown, Fin.getElem_fin, Vector.getElem_set, Fin.ext_iff, eq_comm]
  split
  · rename_i h
    simp only [h]
  · rfl

@[simp] theorem Live.takeDown_guards (l : Live) (p q : Plane) :
    (l.takeDown p).guards[q] = if q = p then l.guards[q].map GuardRecord.disarm else l.guards[q] := by
  simp only [Live.takeDown, Fin.getElem_fin, Vector.getElem_set, Fin.ext_iff, eq_comm]
  split
  · rename_i h
    simp only [h]
  · rfl

theorem takeDownPlanes_planes (s : State) (p : Port) (planes : List Plane) (l : Live) (q : Plane) :
    (takeDownPlanes s p l planes).planes[q] =
      if q ∈ planes ∧ s.planeOwner q = some p then { l.planes[q] with enabled := false } else l.planes[q] := by
  induction planes generalizing l with
  | nil => simp [takeDownPlanes]
  | cons k rest ih =>
    rw [takeDownPlanes, ih]
    by_cases ho : s.planeOwner k = some p
    · rw [if_pos ho, Live.takeDown_planes]
      by_cases hk : q = k
      · subst hk
        simp only [ho, and_true, List.mem_cons, true_or, if_true]
        split <;> rfl
      · simp only [List.mem_cons, hk, false_or, if_false]
    · rw [if_neg ho]
      by_cases hk : q = k
      · subst hk
        simp only [ho, and_false]
      · simp only [List.mem_cons, hk, false_or]

theorem takeDownPlanes_guards (s : State) (p : Port) (planes : List Plane) (l : Live) (q : Plane) :
    (takeDownPlanes s p l planes).guards[q] =
      if q ∈ planes ∧ s.planeOwner q = some p then l.guards[q].map GuardRecord.disarm else l.guards[q] := by
  have htwice : GuardRecord.disarm ∘ GuardRecord.disarm = GuardRecord.disarm := rfl
  induction planes generalizing l with
  | nil => simp [takeDownPlanes]
  | cons k rest ih =>
    rw [takeDownPlanes, ih]
    by_cases ho : s.planeOwner k = some p
    · rw [if_pos ho, Live.takeDown_guards]
      by_cases hk : q = k
      · subst hk
        simp only [ho, and_true, List.mem_cons, true_or, if_true, Option.map_map, htwice, ite_self]
      · simp only [List.mem_cons, hk, false_or, if_false]
    · rw [if_neg ho]
      by_cases hk : q = k
      · subst hk
        simp only [ho, and_false]
      · simp only [List.mem_cons, hk, false_or]

theorem takeDownPlanes_frame (s : State) (p : Port) (planes : List Plane) (l : Live) :
    takeDownPlanes s p l planes =
      { l with planes := (takeDownPlanes s p l planes).planes, guards := (takeDownPlanes s p l planes).guards } := by
  induction planes generalizing l with
  | nil => rfl
  | cons k rest ih =>
    rw [takeDownPlanes, ih]
    split <;> rfl

theorem State.lapseClaims_planes (s : State) (p : Port) (q : Plane) :
    (s.lapseClaims p).live.planes[q] =
      if s.planeOwner q = some p then { s.live.planes[q] with enabled := false } else s.live.planes[q] := by
  simp only [State.lapseClaims, takeDownPlanes_planes, mem_allPlanes, true_and]

theorem State.lapseClaims_guards (s : State) (p : Port) (q : Plane) :
    (s.lapseClaims p).live.guards[q] =
      if s.planeOwner q = some p then s.live.guards[q].map GuardRecord.disarm else s.live.guards[q] := by
  simp only [State.lapseClaims, takeDownPlanes_guards, mem_allPlanes, true_and]

theorem State.lapseClaims_claimOf (s : State) (p : Port) (r : Resource) :
    (s.lapseClaims p).claimOf r = (s.claimOf r).without p := by
  cases r <;> simp [State.lapseClaims, State.claimOf]

theorem Claim.owner_without (c : Claim) (p : Port) :
    (c.without p).owner = if c.owner = some p then none else c.owner := by
  unfold Claim.without
  split <;> rfl

theorem State.sameButQueues_lapseSession (s : State) (p : Port) (field : Byte) :
    (s.setSession p { s.session p with state := .detached, inLapseSet := false }).SameButQueues (s.lapseSession p field) := by
  have hposted := ((State.sameButQueues_setNotices
    (s.setSession p { s.session p with state := .detached, inLapseSet := false }) p .empty).trans
      (State.sameButQueues_post _ p (sessionEnded field p (s.session p))))
  unfold State.lapseSession
  simp only
  split
  · exact hposted
  · exact hposted.trans (State.sameButQueues_postSupervisor _ _)

theorem State.lapseSession_session (s : State) (p : Port) (field : Byte) (k : Port) :
    (s.lapseSession p field).session k =
      if k = p then { s.session p with state := .detached, inLapseSet := false } else s.session k := by
  rw [(s.sameButQueues_lapseSession p field).session, State.setSession_session]

/-- The beginning of a lapse brings its port to Lapsing, and no other port to another state. -/
theorem State.beginLapse_session_state (s : State) (p : Port) (cause : LapseCause) (k : Port) :
    ((s.beginLapse p cause).session k).state = if k = p then .lapsing else (s.session k).state := by
  have hbegun : ((s.lapseBegun p cause).session k).state = if k = p then .lapsing else (s.session k).state := by
    have hset : (s.lapseBegun p cause).session k = if k = p then _ else s.session k := State.setSession_session s p _ k
    rw [hset]
    split <;> rfl
  rw [State.beginLapse_eq, ← hbegun]
  rcases told_endInFlight (s.lapseBegun p cause) p (s.queue.find? (Batch.waitsFor p)) with h | h
  · exact h.session_state k
  · exact h.session_state k

/-! ### The law, through what it reads -/

/-- What the law of ownership reads of the sessions and the claims is the same, or the planes and claims have become
fewer. -/
theorem OwnershipLaw.weaken {s t : State} (h : OwnershipLaw s)
    (hplanes : ∀ p : Plane, t.live.planes[p].enabled = true →
      s.live.planes[p].enabled = true ∧ t.planeOwner p = s.planeOwner p
      ∧ ∀ b, t.live.planes[p].palette = some b → s.live.planes[p].palette = some b ∧ t.bankOwner b = s.bankOwner b)
    (hplaneOwners : ∀ p o, t.planeOwner p = some o → (t.session o).state ≠ .detached)
    (hbankOwners : ∀ b o, t.bankOwner b = some o → (t.session o).state ≠ .detached) : OwnershipLaw t := by
  refine ⟨fun p he => ?_, fun p b he hb => ?_, hplaneOwners, hbankOwners⟩
  · obtain ⟨he, ho, -⟩ := hplanes p he
    exact ho ▸ h.enabled p he
  · obtain ⟨he, ho, hbank⟩ := hplanes p he
    obtain ⟨hb, hbo⟩ := hbank b hb
    rw [ho, hbo]
    exact h.banks p b he hb

/-- Only sessions differ, and no owner becomes Detached. -/
theorem OwnershipLaw.of_sessions {s t : State} (h : OwnershipLaw s)
    (hsame : (t.live.planes, t.planeClaims, t.bankClaims) = (s.live.planes, s.planeClaims, s.bankClaims))
    (hsession : ∀ o, (s.session o).state ≠ .detached → s.holdsClaim o = true → (t.session o).state ≠ .detached) :
    OwnershipLaw t := by
  simp only [Prod.mk.injEq] at hsame
  obtain ⟨hplanes, hplane, hbank⟩ := hsame
  have hpo : t.planeOwner = s.planeOwner := by
    funext q
    rw [State.planeOwner, hplane, State.planeOwner]
  have hbo : t.bankOwner = s.bankOwner := by
    funext b
    rw [State.bankOwner, hbank, State.bankOwner]
  refine h.weaken (fun p he => ?_) (fun p o ho => ?_) fun b o ho => ?_
  · rw [hplanes] at he ⊢
    exact ⟨he, congrFun hpo p, fun b hb => ⟨hb, congrFun hbo b⟩⟩
  · rw [hpo] at ho
    refine hsession o (h.planeOwners p o ho) ?_
    simp only [State.holdsClaim, Bool.or_eq_true, List.any_eq_true, beq_iff_eq]
    exact .inl ⟨p, mem_allPlanes p, ho⟩
  · rw [hbo] at ho
    refine hsession o (h.bankOwners b o ho) ?_
    have hmem : b ∈ allBanks := (by decide : ∀ k : Bank, k ∈ allBanks) b
    simp only [State.holdsClaim, Bool.or_eq_true, List.any_eq_true, beq_iff_eq]
    exact .inr ⟨b, hmem, ho⟩

namespace OwnershipLaw

variable {s t : State}

/-- Everything that the law reads is the same. -/
theorem same (h : OwnershipLaw s)
    (hsame : (t.live.planes, t.planeClaims, t.bankClaims) = (s.live.planes, s.planeClaims, s.bankClaims))
    (hsession : ∀ o, (t.session o).state = (s.session o).state) : OwnershipLaw t :=
  h.of_sessions hsame fun o ho _ => hsession o ▸ ho

theorem told (h : OwnershipLaw s) (ht : Told s t) : OwnershipLaw t := by
  refine h.same ?_ ht.session_state
  obtain ⟨c, x, v, e, rfl⟩ := ht.frame
  rfl

theorem beginLapse (h : OwnershipLaw s) (p : Port) (cause : LapseCause) : OwnershipLaw (s.beginLapse p cause) := by
  refine h.of_sessions ?_ fun o ho _ => ?_
  · obtain ⟨c, x, v, e, w, hf⟩ := s.beginLapse_frame p cause
    rw [hf]
    rfl
  · rw [State.beginLapse_session_state]
    split
    · decide
    · exact ho

theorem tickLease (h : OwnershipLaw s) (p : Port) : OwnershipLaw (s.tickLease p) := by
  rcases s.tickLease_cases p with ⟨-, ht⟩ | ⟨-, -, ht⟩ | ht <;> rw [ht]
  · exact h.beginLapse p .expired
  · refine h.same rfl fun o => ?_
    rw [State.setSession_session]
    split
    · rename_i ho
      rw [ho]
    · rfl
  · exact h

/-! #### Claims -/

theorem claimed (h : OwnershipLaw s) {r : Resource} {p : Port} (hfree : s.claimOf r = .free)
    (hs : (s.session p).state = .attached) : OwnershipLaw (s.setClaim r (.held p)) := by
  have hlive : (s.session p).state ≠ .detached := by rw [hs]; decide
  cases r with
  | plane q =>
    have hnone : s.planeOwner q = none := congrArg Claim.owner hfree
    have howner : ∀ k, (s.setClaim (.plane q) (.held p)).planeOwner k = if k = q then some p else s.planeOwner k := fun k =>
      s.setPlaneClaim_planeOwner q _ k
    refine h.weaken (fun k he => ⟨he, ?_, fun b hb => ⟨hb, rfl⟩⟩) (fun k o ho => ?_) h.bankOwners
    · rw [howner, if_neg]
      rintro rfl
      simpa [hnone] using h.enabled k he
    · rw [howner] at ho
      split at ho
      · cases ho
        exact hlive
      · exact h.planeOwners k o ho
  | bank b =>
    have hnone : s.bankOwner b = none := congrArg Claim.owner hfree
    have howner : ∀ k, (s.setClaim (.bank b) (.held p)).bankOwner k = if k = b then some p else s.bankOwner k := fun k =>
      s.setBankClaim_bankOwner b _ k
    refine h.weaken (fun k he => ⟨he, rfl, fun b' hb => ⟨hb, ?_⟩⟩) h.planeOwners fun k o ho => ?_
    · rw [howner, if_neg]
      rintro rfl
      have howns := h.enabled k he
      rw [← h.banks k b' he hb, hnone] at howns
      cases howns
    · rw [howner] at ho
      split at ho
      · cases ho
        exact hlive
      · exact h.bankOwners k o ho

/-- A free entry takes its owner away, and nothing else. -/
theorem freed (h : OwnershipLaw s) {r : Resource} {p : Port} (hheld : s.claimOf r = .held p)
    (huse : s.inUseCause p r = none) : OwnershipLaw (s.freed r) := by
  cases r with
  | plane q =>
    have hoff : s.live.planes[q].enabled = false := by
      refine Bool.eq_false_iff.2 fun hon => ?_
      simp only [State.inUseCause, hon, if_true, Option.some_or, reduceCtorEq] at huse
    have howner : ∀ k, (s.freed (.plane q)).planeOwner k = if k = q then none else s.planeOwner k := fun k =>
      s.setPlaneClaim_planeOwner q _ k
    refine h.weaken (fun k he => ⟨he, ?_, fun b hb => ⟨hb, rfl⟩⟩) (fun k o ho => ?_) h.bankOwners
    · rw [howner, if_neg]
      rintro rfl
      cases hoff.symm.trans he
    · rw [howner] at ho
      split at ho
      · cases ho
      · exact h.planeOwners k o ho
  | bank b =>
    have hnamed : ∀ q, s.planeOwner q = some p → s.live.planes[q].palette ≠ some b := by
      intro q ho hb
      have hany : (allPlanes.any fun q => s.planeOwner q == some p && s.live.planes[q].palette == some b) = true :=
        List.any_eq_true.2 ⟨q, mem_allPlanes q, by rw [ho, hb, beq_self_eq_true, beq_self_eq_true]; rfl⟩
      simp only [State.inUseCause, hany, if_true, Option.some_or, reduceCtorEq] at huse
    have hbank : s.bankOwner b = some p := congrArg Claim.owner hheld
    have howner : ∀ k, (s.freed (.bank b)).bankOwner k = if k = b then none else s.bankOwner k := fun k =>
      s.setBankClaim_bankOwner b _ k
    refine h.weaken (fun k he => ⟨he, rfl, fun b' hb => ⟨hb, ?_⟩⟩) h.planeOwners fun k o ho => ?_
    · rw [howner, if_neg]
      rintro rfl
      exact hnamed k ((h.banks k b' he hb).symm.trans hbank) hb
    · rw [howner] at ho
      split at ho
      · cases ho
      · exact h.bankOwners k o ho

theorem revoked (h : OwnershipLaw s) {r : Resource} {q : Port} (hheld : s.claimOf r = .held q) :
    OwnershipLaw (s.setClaim r (.revoking q)) := by
  cases r with
  | plane k =>
    have howner : (s.setClaim (.plane k) (.revoking q)).planeOwner = s.planeOwner := by
      funext j
      refine (s.setPlaneClaim_planeOwner k _ j).trans ?_
      split
      · rename_i hj
        rw [hj]
        exact (congrArg Claim.owner hheld).symm
      · rfl
    exact h.weaken (fun p he => ⟨he, congrFun howner p, fun b hb => ⟨hb, rfl⟩⟩) (howner ▸ h.planeOwners) h.bankOwners
  | bank k =>
    have howner : (s.setClaim (.bank k) (.revoking q)).bankOwner = s.bankOwner := by
      funext j
      refine (s.setBankClaim_bankOwner k _ j).trans ?_
      split
      · rename_i hj
        rw [hj]
        exact (congrArg Claim.owner hheld).symm
      · rfl
    exact h.weaken (fun p he => ⟨he, rfl, fun b hb => ⟨hb, congrFun howner b⟩⟩) h.planeOwners (howner ▸ h.bankOwners)

theorem acted {p : Port} {r : Reply × State} (h : OwnershipLaw s) (ha : Acted p s r) : OwnershipLaw r.2 := by
  cases ha with
  | attached k out lease =>
    refine h.of_sessions rfl fun o ho _ => ?_
    have hsession : ((((s.setSession p ((s.session p).begun (s.roleOf p) lease)).setStaged p .empty).setNextBatch p
        1).setHistory p []).session o = if o = p then (s.session p).begun (s.roleOf p) lease else s.session o :=
      State.setSession_session s p _ o
    rw [hsession]
    split
    · exact fun h => by cases h
    · exact ho
  | detached k out hs hc =>
    refine h.of_sessions rfl fun o ho hclaim => ?_
    have hsession : ((s.setSession p { s.session p with state := .detached, remaining := 0 }).setStaged p .empty).session o =
        if o = p then { s.session p with state := .detached, remaining := 0 } else s.session o :=
      State.setSession_session s p _ o
    rw [hsession, if_neg]
    · exact ho
    · rintro rfl
      cases hc.symm.trans hclaim
  | lapsed k out q cause => exact h.beginLapse q cause
  | claimed k out r hs hr => exact h.claimed hr hs
  | released k out r hr hu => exact h.freed hr hu
  | revoked k out r q hr => exact h.revoked hr
  | _ => exact h.same rfl fun _ => rfl

theorem portPath {p : Port} {n : Nat} (h : OwnershipLaw s) (hp : PortPath p s n t) : OwnershipLaw t := by
  refine hp.keeps h (fun _ _ h => h.same rfl fun _ => rfl) (fun u h => ?_) fun _ _ h ha => h.acted ha
  rw [State.restartLease_eq]
  refine h.same rfl fun o => ?_
  rw [State.setSession_session]
  split
  · rename_i ho
    rw [ho]
    split <;> rfl
  · rfl

/-! #### Lapses and revocations -/

/-- With its planes taken down and its claims freed a port can be Detached. -/
theorem completeLapse (h : OwnershipLaw s) (field : Byte) (p : Port) : OwnershipLaw (s.completeLapse field p) := by
  unfold State.completeLapse
  split
  · have hsame := (s.lapseClaims p).sameButQueues_lapseSession p field
    have hplaneOwner : ∀ k, ((s.lapseClaims p).lapseSession p field).planeOwner k =
        if s.planeOwner k = some p then none else s.planeOwner k := fun k => by
      obtain ⟨v, hv⟩ := hsame
      rw [hv]
      exact (congrArg Claim.owner (s.lapseClaims_claimOf p (.plane k))).trans (Claim.owner_without _ p)
    have hbankOwner : ∀ k, ((s.lapseClaims p).lapseSession p field).bankOwner k =
        if s.bankOwner k = some p then none else s.bankOwner k := fun k => by
      obtain ⟨v, hv⟩ := hsame
      rw [hv]
      exact (congrArg Claim.owner (s.lapseClaims_claimOf p (.bank k))).trans (Claim.owner_without _ p)
    have hplanes : ((s.lapseClaims p).lapseSession p field).live = (s.lapseClaims p).live := by
      obtain ⟨v, hv⟩ := hsame
      rw [hv]
      rfl
    have hother : ∀ o, o ≠ p → ((s.lapseClaims p).lapseSession p field).session o = s.session o := fun o ho => by
      rw [State.lapseSession_session, if_neg ho]
      rfl
    refine h.weaken (fun k he => ?_) (fun k o ho => ?_) fun b o ho => ?_
    · rw [hplanes, State.lapseClaims_planes] at he ⊢
      by_cases ho : s.planeOwner k = some p
      · rw [if_pos ho] at he
        cases he
      · rw [if_neg ho] at he ⊢
        refine ⟨he, by rw [hplaneOwner, if_neg ho], fun b hb => ⟨hb, ?_⟩⟩
        rw [hbankOwner, if_neg]
        rwa [h.banks k b he hb]
    · rw [hplaneOwner] at ho
      split at ho
      · cases ho
      · rename_i hne
        rw [hother o (by rintro rfl; exact hne ho)]
        exact h.planeOwners k o ho
    · rw [hbankOwner] at ho
      split at ho
      · cases ho
      · rename_i hne
        rw [hother o (by rintro rfl; exact hne ho)]
        exact h.bankOwners b o ho
  · exact h

theorem lapsesCompleted (h : OwnershipLaw s) (field : Byte) : OwnershipLaw (s.lapsesCompleted field) := by
  unfold State.lapsesCompleted
  exact ((h.completeLapse field 0).completeLapse field 1).completeLapse field 2

theorem revokePlane (h : OwnershipLaw s) (field : Byte) (q : Plane) : OwnershipLaw (State.revokePlane field s q) := by
  unfold State.revokePlane
  split
  · refine told ?_ (.post .refl _ _)
    have howner : ∀ k, State.planeOwner { s.setPlaneClaim q .free with live := s.live.takeDown q } k =
        if k = q then none else s.planeOwner k := fun k =>
      s.setPlaneClaim_planeOwner q _ k
    refine h.weaken (fun k he => ?_) (fun k o ho => ?_) h.bankOwners
    · simp only [Live.takeDown_planes] at he ⊢
      split at he
      · cases he
      · rename_i hk
        rw [if_neg hk]
        exact ⟨he, by rw [howner, if_neg hk], fun b hb => ⟨hb, rfl⟩⟩
    · rw [howner] at ho
      split at ho
      · cases ho
      · exact h.planeOwners k o ho
  · exact h
  · exact h

theorem revokeBank (h : OwnershipLaw s) (field : Byte) (b : Bank) : OwnershipLaw (State.revokeBank field s b) := by
  unfold State.revokeBank
  split
  · rename_i p hclaim
    refine told ?_ (.post .refl _ _)
    have hbank : s.bankOwner b = some p := congrArg Claim.owner hclaim
    have howner : ∀ k, State.bankOwner
        { s.setBankClaim b .free with live := { s.live with planes := Vector.ofFn (unnamed s p b) } } k =
          if k = b then none else s.bankOwner k := fun k =>
      s.setBankClaim_bankOwner b _ k
    have hplane : ∀ k : Plane, (Vector.ofFn (unnamed s p b))[k] = unnamed s p b k := fun k => by simp
    refine h.weaken (fun k he => ?_) h.planeOwners fun k o ho => ?_
    · simp only [hplane, unnamed] at he ⊢
      split at he
      · rename_i hnamed
        rw [if_pos hnamed]
        exact ⟨he, rfl, fun b' hb' => by cases hb'⟩
      · rename_i hnamed
        rw [if_neg hnamed]
        refine ⟨he, rfl, fun b' hb' => ⟨hb', ?_⟩⟩
        rw [howner, if_neg]
        rintro rfl
        exact hnamed ⟨(h.banks k b' he hb').symm.trans hbank, hb'⟩
    · rw [howner] at ho
      split at ho
      · cases ho
      · exact h.bankOwners k o ho
  · exact h
  · exact h

theorem revocationsCompleted (h : OwnershipLaw s) (field : Byte) : OwnershipLaw (s.revocationsCompleted field) :=
  foldl_keeps (P := OwnershipLaw) (f := State.revokeBank field) (fun _ b h => h.revokeBank field b) allBanks
    (foldl_keeps (P := OwnershipLaw) (f := State.revokePlane field) (fun _ q h => h.revokePlane field q) allPlanes h)

end OwnershipLaw

/-! ### Batches -/

/-- A plane is enabled as it stood, or an edit of the batch touches it. -/
theorem Work.edit_enabled (w : Work) (i : Nat) (e : Edit) (p : Plane) :
    (w.edit i e).live.planes[p].enabled = w.live.planes[p].enabled ∨ e.touched = some (.plane p) := by
  cases e with
  | plane e =>
    simp only [Work.edit, Live.setPlane, Fin.getElem_fin, Vector.getElem_set]
    split
    · rename_i hp
      have hp : e.plane = p := Fin.ext hp
      subst hp
      exact .inr rfl
    · exact .inl rfl
  | colours bank first cs => exact .inl rfl
  | order p form => exact .inl rfl
  | signature p expected limit action =>
    left
    cases hg : w.live.guards[p] <;> simp only [Work.edit, hg, Live.setGuard]
  | guard q set =>
    cases set with
    | true =>
      obtain ⟨o, g, hl⟩ := w.live.setGuarded_scans q
      simp only [Work.edit, hl]
      exact .inl trivial
    | false =>
      obtain ⟨o, g, hl⟩ := w.live.clearGuarded_scans q
      simp only [Work.edit, hl]
      exact .inl trivial
  | scan e => exact .inl rfl

theorem workOf_enabled (l : Live) (edits : List Edit) (p : Plane) :
    (workOf l edits).live.planes[p].enabled = l.planes[p].enabled ∨ ∃ e ∈ edits, e.touched = some (.plane p) := by
  refine Work.edits_keeps
    (P := fun w => w.live.planes[p].enabled = l.planes[p].enabled ∨ ∃ e ∈ edits, e.touched = some (.plane p))
    (fun w i e hm h => ?_) 1 (.inl rfl)
  rcases w.edit_enabled i e p with he | he
  · rw [he]
    exact h
  · exact .inr ⟨e, hm, he⟩

theorem unheldBank_of_judgeBank {s : State} {l : Live} {edits : List Edit} (h : judgeBank s l edits = .pass) (p : Plane) :
    unheldBank s l p = none := by
  unfold judgeBank at h
  split at h
  · cases h
  · split at h
    · cases h
    · rename_i hnone
      simpa using find?_allPlanes_eq_none.1 hnone p

/-- A batch that passes validation enables no plane but of its port, and leaves no enabled plane without its bank. -/
theorem OwnershipLaw.applied {s : State} (h : OwnershipLaw s) {p : Port} {edits : List Edit} {q : List Batch}
    (hpass : validate s p edits (workOf s.live edits) = .pass) :
    OwnershipLaw { s with queue := q, live := (workOf s.live edits).live } := by
  obtain ⟨howner, -, hbank, -, -⟩ := validate_eq_pass.1 hpass
  refine ⟨fun k he => ?_, fun k b he hb => ?_, h.planeOwners, h.bankOwners⟩
  · rcases workOf_enabled s.live edits k with hk | ⟨e, hm, htouched⟩
    · exact h.enabled k (hk ▸ he)
    · unfold judgeOwner at howner
      split at howner
      · cases howner
      · rename_i hnone
        have hk := firstNotHeld_eq_none.1 hnone e hm _ htouched
        exact Option.isSome_iff_exists.2 ⟨p, hk⟩
  · have hk := unheldBank_of_judgeBank hbank k
    simp only [unheldBank] at hk
    rw [if_pos he] at hk
    simp only at hb
    rw [hb] at hk
    simp only [ite_eq_left_iff, reduceCtorEq, imp_false, Decidable.not_not, Bool.and_eq_true, beq_iff_eq] at hk
    exact hk.2

theorem OwnershipLaw.deviceReset (nreset addrsel : Bool) (supsel : BitVec 2) (pending : List Instr) :
    OwnershipLaw (State.deviceReset nreset addrsel supsel pending) := by
  have hplane : ∀ p : Plane, (State.deviceReset nreset addrsel supsel pending).planeOwner p = none := by
    intro p
    have hfree : (Vector.replicate 16 Claim.free)[p] = .free := by revert p; decide
    simp only [State.planeOwner, State.deviceReset, hfree, Claim.owner]
  have hbank : ∀ b : Bank, (State.deviceReset nreset addrsel supsel pending).bankOwner b = none := by
    intro b
    have hfree : (Vector.replicate 4 Claim.free)[b] = .free := by revert b; decide
    simp only [State.bankOwner, State.deviceReset, hfree, Claim.owner]
  have hoff : ∀ p : Plane, Live.reset.planes[p].enabled = false := by decide
  refine ⟨fun p he => ?_, fun p b he => ?_, fun p o ho => ?_, fun b o ho => ?_⟩
  · cases (hoff p).symm.trans he
  · cases (hoff p).symm.trans he
  · cases (hplane p).symm.trans ho
  · cases (hbank b).symm.trans ho

theorem OwnershipLaw.stepTo {s t : State} (h : OwnershipLaw s) (hst : StepTo s t) : OwnershipLaw t := by
  cases hst with
  | stays => exact h
  | port p hp => exact h.portPath hp
  | idle =>
    rw [State.edge_frame]
    exact h.same rfl fun _ => rfl
  | reset addrsel supsel =>
    exact (OwnershipLaw.deviceReset false addrsel supsel s.pending).same rfl fun _ => rfl
  | release =>
    obtain ⟨g, w, held, owners, hf⟩ := State.beginField_frame { s with nreset := true } false
    rw [hf]
    exact h.same rfl fun _ => rfl
  | fieldStart =>
    have hended : OwnershipLaw { s with compose := { s.compose with pipe := .lineEnd true } }.blankingEnded :=
      h.same rfl fun _ => rfl
    have hblank := hended.told (told_endBlanking _)
    have htaken : OwnershipLaw { s with compose := { s.compose with pipe := .lineEnd true } }.endBlanking.takeScan := by
      cases hm : { s with compose := { s.compose with pipe := .lineEnd true } }.endBlanking.live.pendingMark with
      | false => rwa [State.takeScan_of_not_pending hm]
      | true =>
        refine OwnershipLaw.told ?_ (told_takeScan hm)
        exact hblank.same rfl fun _ => rfl
    obtain ⟨g, w, held, owners, hf⟩ := State.beginField_frame
      { s with compose := { s.compose with pipe := .lineEnd true } }.endBlanking.takeScan s.live.pendingMark
    rw [hf]
    exact htaken.same rfl fun _ => rfl
  | waitEnds _ p w field =>
    refine OwnershipLaw.told ?_ (.complete (.refl (s := s.setWaiter p none)) p .ok [field])
    exact h.same rfl fun _ => rfl
  | refIn => exact h.same rfl fun _ => rfl
  | pixel _ x y =>
    rw [State.edge_frame]
    exact h.same rfl fun _ => rfl
  | blankStart => exact h.same rfl fun _ => rfl
  | faults => exact (h.told (told_faultsReported s)).same rfl fun _ => rfl
  | compare =>
    have hcompared : OwnershipLaw s.compared := by
      refine foldl_keeps (P := OwnershipLaw) (f := State.comparePlane) (fun u q hu => ?_) allPlanes h
      unfold State.comparePlane
      split
      · exact hu
      · refine OwnershipLaw.told ?_ (told_postComparison _ q _)
        exact hu.same rfl fun _ => rfl
    exact hcompared.same (by dsimp only) fun _ => by dsimp only [State.session]
  | lapses _ w => exact (h.lapsesCompleted w.field).same (by dsimp only) fun _ => by dsimp only [State.session]
  | revocations _ w => exact (h.revocationsCompleted w.field).same (by dsimp only) fun _ => by dsimp only [State.session]
  | scanned _ w b =>
    unfold State.scanBatch
    split
    case h_4 =>
      refine OwnershipLaw.told ?_ (told_reportRejected _ _ _ _ _ _)
      exact h.same rfl fun _ => rfl
    all_goals exact h.same rfl fun _ => rfl
  | scanEnds => exact h.same rfl fun _ => rfl
  | judged _ w b =>
    rcases s.judged_cases w.field b with ⟨hpass, ht⟩ | ht
    · exact OwnershipLaw.told (h.applied hpass) ht
    · refine OwnershipLaw.told ?_ ht
      exact h.same rfl fun _ => rfl
  | countdown => exact h.same rfl fun _ => rfl
  | sealTimeout _ p b =>
    refine OwnershipLaw.told ?_ (.complete .refl p _ _)
    exact h.same rfl fun _ => rfl
  | leaseTick => exact ((h.tickLease 0).tickLease 1).tickLease 2
  | leaseExpiry _ p => exact h.beginLapse p .expired

/-- Settles O55: claims are given, taken and revoked plane by plane and bank by bank, and validation answers for the planes
that a batch enables. -/
theorem ownershipIsKept : Obligations.OwnershipIsKept := by
  unfold Obligations.OwnershipIsKept
  intro s t h hst
  have hfronted : OwnershipLaw s.fronted := h.same rfl fun _ => rfl
  exact hfronted.stepTo (stepTo_of_step hst)

end Sys2Proof.Machine
end

section
/-! Sessions (R64, R66, R98, R101, R102, R104 to R106, R117). -/

namespace Sys2Proof.Machine

/-! ### One Session Table entry -/

/-- A Session Table entry, with the role that its port's strap gives. -/
structure Session.Ok (role : Role) (x : Session) : Prop where
  lapseSet : x.inLapseSet = true ↔ x.state = .lapsing
  number : x.state ≠ .detached → x.number ≠ 0
  role : x.state ≠ .detached → x.role = role
  lease : x.state = .attached → x.role = .member → x.interval ≠ 0
  remaining : x.remaining ≤ x.interval
  stopped : x.state ≠ .attached → x.remaining = 0
  runs : x.state = .attached → x.interval ≠ 0 → x.remaining ≠ 0

theorem nextNumber_ne_zero (n : Byte) : nextNumber n ≠ 0 := by
  unfold nextNumber
  split
  · decide
  · rename_i hn
    intro h
    have htoNat := congrArg BitVec.toNat h
    simp only [BitVec.toNat_add, BitVec.ofNat_eq_ofNat, BitVec.toNat_ofNat] at htoNat
    have hlt := n.isLt
    have hne : n.toNat ≠ 255 := fun h => hn (BitVec.eq_of_toNat_eq h)
    omega

namespace Session.Ok

variable {role : Role} {x : Session}

theorem restarted (h : x.Ok role) : ({ x with remaining := x.interval } : Session).Ok role ∨ x.state ≠ .attached := by
  by_cases hs : x.state = .attached
  · exact .inl ⟨h.lapseSet, h.number, h.role, h.lease, BitVec.le_refl _, fun hn => absurd hs hn, fun _ hi => hi⟩
  · exact .inr hs

theorem restart (h : x.Ok role) :
    (if x.state = .attached then { x with remaining := x.interval } else x : Session).Ok role := by
  split
  · rename_i hs
    exact h.restarted.resolve_right fun hn => hn hs
  · exact h

theorem ticked (h : x.Ok role) (hr : 1 < x.remaining.toNat) :
    ({ x with remaining := x.remaining - 1 } : Session).Ok role := by
  have hsub : (x.remaining - 1).toNat = x.remaining.toNat - 1 := by
    have hlt := x.remaining.isLt
    simp only [BitVec.toNat_sub, BitVec.ofNat_eq_ofNat, BitVec.toNat_ofNat]
    omega
  refine ⟨h.lapseSet, h.number, h.role, h.lease, ?_, fun hs => ?_, fun _ _ hz => ?_⟩
  · have hle := BitVec.le_def.1 h.remaining
    rw [BitVec.le_def, hsub]
    exact Nat.le_trans (Nat.sub_le _ _) hle
  · have hzero := congrArg BitVec.toNat (h.stopped hs)
    simp only [BitVec.ofNat_eq_ofNat, BitVec.toNat_ofNat] at hzero
    omega
  · have hzero : (x.remaining - 1).toNat = 0 := congrArg BitVec.toNat hz
    omega

theorem lapseBegun (h : x.Ok role) (hs : x.state = .attached) (cause : LapseCause) (purged : Nat) :
    ({ x with state := .lapsing, cause, purged, inLapseSet := true, remaining := 0 } : Session).Ok role := by
  have hlive : x.state ≠ .detached := by rw [hs]; decide
  exact ⟨by simp, fun _ => h.number hlive, fun _ => h.role hlive, fun h => (by cases h), BitVec.le_def.2 (Nat.zero_le _),
    fun _ => rfl, fun h => (by cases h)⟩

theorem lapseEnded (h : x.Ok role) (hs : x.state = .lapsing) :
    ({ x with state := .detached, inLapseSet := false } : Session).Ok role := by
  have hstopped : x.remaining = 0 := h.stopped (by rw [hs]; decide)
  exact ⟨by simp, fun h => absurd rfl h, fun h => absurd rfl h, fun h => (by cases h), h.remaining,
    fun _ => hstopped, fun h => (by cases h)⟩

theorem ended (h : x.Ok role) (hs : x.state = .attached) :
    ({ x with state := .detached, remaining := 0 } : Session).Ok role := by
  have hset : x.inLapseSet ≠ true := fun hin => by cases hs.symm.trans (h.lapseSet.1 hin)
  exact ⟨⟨fun hin => absurd hin hset, fun h => (by cases h)⟩, fun h => absurd rfl h, fun h => absurd rfl h,
    fun h => (by cases h), BitVec.le_def.2 (Nat.zero_le _), fun _ => rfl, fun h => (by cases h)⟩

theorem begun (h : x.Ok role) (hs : x.state = .detached) {lease : Byte} (hl : role = .member → lease ≠ 0) :
    (x.begun role lease).Ok role := by
  have hset : x.inLapseSet ≠ true := fun hin => by cases hs.symm.trans (h.lapseSet.1 hin)
  exact ⟨⟨fun hin => absurd hin hset, fun h => (by cases h)⟩, fun _ => nextNumber_ne_zero x.number, fun _ => rfl,
    fun _ hr => hl hr, BitVec.le_refl _, fun h => absurd rfl h, fun _ hi => hi⟩

end Session.Ok

/-! ### One port -/

/-- Every batch of the second queue comes from one of the first with its port and session, which was Applying only if it
still is. -/
def Descends (queue queue' : List Batch) : Prop :=
  ∀ b ∈ queue', ∃ b' ∈ queue, b'.port = b.port ∧ b'.session = b.session ∧ (b'.state = .applying → b.state = .applying)

namespace Descends

theorem of_sublist {q q' : List Batch} (h : q'.Sublist q) : Descends q q' := fun b hb => ⟨b, h.subset hb, rfl, rfl, id⟩

theorem refl (q : List Batch) : Descends q q := of_sublist (List.Sublist.refl q)

theorem trans {q q' q'' : List Batch} (h : Descends q q') (h' : Descends q' q'') : Descends q q'' := by
  intro b hb
  obtain ⟨b', hb', hport, hsession, hstate⟩ := h' b hb
  obtain ⟨b'', hb'', hport', hsession', hstate'⟩ := h b' hb'
  exact ⟨b'', hb'', hport'.trans hport, hsession'.trans hsession, fun h => hstate (hstate' h)⟩

theorem map {f : Batch → Batch}
    (hf : ∀ b, (f b).port = b.port ∧ (f b).session = b.session ∧ (b.state = .applying → (f b).state = .applying))
    (q : List Batch) : Descends q (q.map f) := by
  intro b hb
  obtain ⟨b', hb', rfl⟩ := List.mem_map.1 hb
  obtain ⟨hport, hsession, hstate⟩ := hf b'
  exact ⟨b', hb', hport.symm, hsession.symm, hstate⟩

theorem modifyFirst (p : Batch → Bool) {g : Batch → Batch}
    (hg : ∀ b, (g b).port = b.port ∧ (g b).session = b.session ∧ (b.state = .applying → (g b).state = .applying))
    (q : List Batch) : Descends q (modifyFirst p g q) := by
  induction q with
  | nil => exact .refl _
  | cons a rest ih =>
    unfold Machine.modifyFirst
    split
    · intro b hb
      rcases List.mem_cons.1 hb with rfl | hb
      · obtain ⟨hport, hsession, hstate⟩ := hg a
        exact ⟨a, List.mem_cons_self, hport.symm, hsession.symm, hstate⟩
      · exact ⟨b, List.mem_cons_of_mem a hb, rfl, rfl, id⟩
    · intro b hb
      rcases List.mem_cons.1 hb with rfl | hb
      · exact ⟨b, List.mem_cons_self, rfl, rfl, id⟩
      · obtain ⟨b', hb', h⟩ := ih b hb
        exact ⟨b', List.mem_cons_of_mem a hb', h⟩

end Descends

/-- What the law of the sessions says of one port. -/
structure State.SessionAt (s : State) (p : Port) : Prop where
  entry : (s.session p).Ok (s.roleOf p)
  staged : (s.session p).state ≠ .attached → s.staged p = .empty
  check : (s.staged p).list = [] → (s.staged p).check = 0xFFFF
  batches : ∀ b ∈ s.queue, b.port = p →
    (s.session p).state ≠ .detached ∧ ((s.session p).state ≠ .attached → b.state = .applying)
    ∧ b.session = (s.session p).number

theorem sessionLaw_iff {s : State} : SessionLaw s ↔ ∀ p, s.SessionAt p := by
  constructor
  · intro h p
    obtain ⟨hset, hnumber, hrole, hlease, hremaining, hstopped, hruns⟩ := h.entry p
    refine ⟨⟨hset, hnumber, hrole, hlease, hremaining, hstopped, hruns⟩, h.staged p, h.check p, ?_⟩
    rintro b hb rfl
    exact ⟨fun hd => h.noBatch b hb hd, h.queued b hb, h.current b hb⟩
  · intro h
    refine ⟨fun p => ?_, fun p => (h p).staged, fun p => (h p).check, fun b hb => ((h b.port).batches b hb rfl).2.1,
      fun b hb => ((h b.port).batches b hb rfl).1, fun b hb => ((h b.port).batches b hb rfl).2.2⟩
    obtain ⟨hset, hnumber, hrole, hlease, hremaining, hstopped, hruns⟩ := (h p).entry
    exact ⟨hset, hnumber, hrole, hlease, hremaining, hstopped, hruns⟩

namespace State.SessionAt

variable {s t : State} {p : Port}

/-- The port's session is the same, its Staged List the same or empty, and the queue has no other batch of it. -/
theorem congr (h : s.SessionAt p) (hrole : t.supsel = s.supsel) (hsession : t.session p = s.session p)
    (hstaged : t.staged p = s.staged p ∨ t.staged p = .empty) (hqueue : Descends s.queue t.queue) : t.SessionAt p := by
  have hr : t.roleOf p = s.roleOf p := by
    unfold State.roleOf State.strapped
    rw [hrole]
  refine ⟨by rw [hr, hsession]; exact h.entry, fun hs => ?_, fun hl => ?_, fun b hb hp => ?_⟩
  · rcases hstaged with he | he
    · rw [he]
      exact h.staged (hsession ▸ hs)
    · exact he
  · rcases hstaged with he | he
    · rw [he] at hl ⊢
      exact h.check hl
    · rw [he]
      rfl
  · obtain ⟨b', hb', hport, hses, hstate⟩ := hqueue b hb
    obtain ⟨hd, ha, hn⟩ := h.batches b' hb' (hport.trans hp)
    rw [hsession]
    exact ⟨hd, fun hna => hstate (ha hna), hses.symm.trans hn⟩

/-- The port's entry is written with its state and number kept. -/
theorem setEntry (h : s.SessionAt p) {x : Session} (hx : x.Ok (s.roleOf p)) (hstate : x.state = (s.session p).state)
    (hnumber : x.number = (s.session p).number) : (s.setSession p x).SessionAt p := by
  have hself : (s.setSession p x).session p = x := by simp
  refine ⟨by rw [hself]; exact hx, fun hs => ?_, h.check, fun b hb hp => ?_⟩
  · rw [hself, hstate] at hs
    exact h.staged hs
  · rw [hself, hstate, hnumber]
    exact h.batches b hb hp

/-- The port's entry is written when nothing is staged and no batch of it stands in the queue. -/
theorem setVacant (h : s.SessionAt p) {x : Session} (hx : x.Ok (s.roleOf p)) (hempty : s.staged p = .empty)
    (hnone : ∀ b ∈ s.queue, b.port ≠ p) : (s.setSession p x).SessionAt p := by
  have hself : (s.setSession p x).session p = x := by simp
  exact ⟨by rw [hself]; exact hx, fun _ => hempty, h.check, fun b hb hp => absurd hp (hnone b hb)⟩

end State.SessionAt

/-! ### Every port -/

/-- Every port's session is lawful. -/
def State.Sessions (s : State) : Prop := ∀ p, s.SessionAt p

namespace State.Sessions

variable {s t : State}

theorem congr (h : s.Sessions) (hsame : (t.supsel, t.sessions) = (s.supsel, s.sessions)) (hstaged : s.StagesKept t)
    (hqueue : Descends s.queue t.queue) : t.Sessions := by
  simp only [Prod.mk.injEq] at hsame
  obtain ⟨hrole, hsessions⟩ := hsame
  refine fun p => (h p).congr hrole ?_ (hstaged p) hqueue
  rw [State.session, hsessions]
  rfl

theorem same (h : s.Sessions) (hsame : (t.supsel, t.sessions, t.staging, t.queue) = (s.supsel, s.sessions, s.staging, s.queue)) :
    t.Sessions := by
  simp only [Prod.mk.injEq] at hsame
  obtain ⟨hrole, hsessions, hstaging, hqueue⟩ := hsame
  exact h.congr (by rw [hrole, hsessions]) (State.stagesKept_of_eq hstaging) (hqueue ▸ .refl _)

/-- One port's entry is written, and no other. -/
theorem setSession (h : s.Sessions) {p : Port} {x : Session} (hp : (s.setSession p x).SessionAt p) :
    (s.setSession p x).Sessions := by
  intro k
  by_cases hk : k = p
  · rw [hk]
    exact hp
  · refine (h k).congr rfl ?_ (.inl rfl) (.refl _)
    rw [State.setSession_session, if_neg hk]

theorem restart (h : s.Sessions) (p : Port) :
    (s.setSession p
      (if (s.session p).state = .attached then { s.session p with remaining := (s.session p).interval }
      else s.session p)).Sessions := by
  refine h.setSession ((h p).setEntry (h p).entry.restart ?_ ?_) <;> split <;> rfl

theorem complete (h : s.Sessions) (p : Port) (k : Completion) (out : List Byte) : (s.complete p k out).Sessions := by
  rw [State.complete_eq]
  split
  · exact restart (s := s.setCpi p _) (h.same rfl) p
  · exact h

theorem told (h : s.Sessions) (ht : Told s t) : t.Sessions :=
  ht.keeps h (fun _ p k out h => h.complete p k out) (fun s p n h => by rw [State.post_eq]; exact h.same rfl)
    fun _ _ _ h => h.same rfl

/-- A port whose session begins, ends or lapses, its Staged List emptied; the batches it keeps fit the new session. -/
theorem setEmptied (h : s.Sessions) {p : Port} {x : Session} (hx : x.Ok (s.roleOf p)) (hrole : t.supsel = s.supsel)
    (hsession : ∀ k, t.session k = if k = p then x else s.session k)
    (hstaged : ∀ k, t.staged k = if k = p then .empty else s.staged k) (hqueue : Descends s.queue t.queue)
    (hbatches : ∀ b ∈ t.queue, b.port = p →
      x.state ≠ .detached ∧ (x.state ≠ .attached → b.state = .applying) ∧ b.session = x.number) : t.Sessions := by
  intro k
  by_cases hk : k = p
  · subst hk
    have hr : t.roleOf k = s.roleOf k := by
      unfold State.roleOf State.strapped
      rw [hrole]
    have hself : t.session k = x := by rw [hsession, if_pos rfl]
    have hempty : t.staged k = .empty := by rw [hstaged, if_pos rfl]
    refine ⟨by rw [hself, hr]; exact hx, fun _ => hempty, fun _ => by rw [hempty]; rfl, ?_⟩
    rw [hself]
    exact hbatches
  · exact (h k).congr hrole (by rw [hsession, if_neg hk]) (.inl (by rw [hstaged, if_neg hk])) hqueue

theorem beginLapse (h : s.Sessions) {p : Port} (hs : (s.session p).state = .attached) (cause : LapseCause) :
    (s.beginLapse p cause).Sessions := by
  have hbegun : (s.lapseBegun p cause).Sessions := by
    refine h.setEmptied (p := p) ((h p).entry.lapseBegun hs cause (s.queue.countP (Batch.purgedBy p))) rfl
      (fun k => State.setSession_session s p _ k) (fun k => State.setStaged_staged _ p .empty k) ?_ ?_
    · exact (Descends.of_sublist List.filter_sublist).trans
        (.map (fun b => by split <;> exact ⟨rfl, rfl, id⟩) _)
    · intro b hb hp
      obtain ⟨b', hb', rfl⟩ := List.mem_map.1 hb
      obtain ⟨hmem, hkept⟩ := List.mem_filter.1 hb'
      have hport : b'.port = p := by
        split at hp <;> exact hp
      have hnumber := ((h p).batches b' hmem hport).2.2
      have hst : b'.state = .applying := by
        cases hst : b'.state with
        | applying => rfl
        | queued => simp [Batch.purgedBy, hport, hst] at hkept
      rw [if_pos hport]
      exact ⟨by simp, fun _ => hst, hnumber⟩
  rw [State.beginLapse_eq]
  rcases told_endInFlight (s.lapseBegun p cause) p (s.queue.find? (Batch.waitsFor p)) with ht | ht
  · exact hbegun.told ht
  · refine told ?_ ht
    exact hbegun.same rfl

theorem tickLease (h : s.Sessions) (p : Port) : (s.tickLease p).Sessions := by
  rcases s.tickLease_cases p with ⟨he, ht⟩ | ⟨he, hl, ht⟩ | ht <;> rw [ht]
  · exact h.beginLapse (State.attached_of_expiryDue he) .expired
  · have hr : 1 < (s.session p).remaining.toNat := by
      have hnot : ¬ (s.session p).remaining ≤ 1 := by simpa [State.expiryDue, hl] using he
      rw [BitVec.le_def] at hnot
      simpa using hnot
    exact h.setSession ((h p).setEntry ((h p).entry.ticked hr) rfl rfl)
  · exact h

theorem acted {p : Port} {r : Reply × State} (h : s.Sessions) (ha : Acted p s r) : r.2.Sessions := by
  cases ha with
  | attached k out lease hs hl =>
    refine h.setEmptied (p := p) ((h p).entry.begun hs hl) rfl (fun k => State.setSession_session s p _ k)
      (fun k => State.setStaged_staged _ p .empty k) (.refl _) fun b hb hp => ?_
    exact absurd hs ((h p).batches b hb hp).1
  | detached k out hs hc hb =>
    refine h.setEmptied (p := p) ((h p).entry.ended hs) rfl (fun k => State.setSession_session s p _ k)
      (fun k => State.setStaged_staged _ p .empty k) (.refl _) fun b hb' hp => ?_
    unfold State.portBatches at hb
    rw [List.countP_eq_zero] at hb
    exact absurd (beq_iff_eq.2 hp) (hb b hb')
  | lapsed k out q cause hs => exact h.beginLapse hs cause
  | claimed k out r => cases r <;> exact h.same rfl
  | released k out r => cases r <;> exact h.same rfl
  | revoked k out r => cases r <;> exact h.same rfl
  | staged k out e payload hs =>
    intro q
    obtain ⟨hentry, hstaged, hcheck, hbatches⟩ := h q
    refine ⟨hentry, fun hq => ?_, ?_, hbatches⟩
    · rw [State.setStaged_staged, if_neg]
      · exact hstaged hq
      · rintro rfl
        exact hq hs
    · rw [State.setStaged_staged]
      split
      · intro hnil
        simp [Staging.add] at hnil
      · exact hcheck
  | emptied => exact h.congr rfl (s.stagesKept_emptied p) (.refl _)
  | sealed reply a hs =>
    have hstaging : s.StagesKept (s.sealed p (sealedBatch p a s)) := s.stagesKept_emptied p
    intro q
    obtain ⟨hentry, hst, hcheck, hbatches⟩ := (h q).congr (t := s.setStaged p .empty) rfl rfl (hstaging q) (.refl _)
    refine ⟨hentry, hst, hcheck, fun b hb hq => ?_⟩
    rcases List.mem_append.1 hb with hb | hb
    · exact hbatches b hb hq
    · rw [List.mem_singleton.1 hb] at hq ⊢
      have hqp : p = q := hq
      subst hqp
      exact ⟨fun hd => (by cases hs.symm.trans hd), fun hn => absurd hs hn, rfl⟩
  | withdrawn => exact h.congr rfl s.stagesKept_refl (.of_sublist List.eraseP_sublist)
  | answered | freeValues | waits | delivered => exact h.same rfl

theorem portPath {p : Port} {n : Nat} (h : s.Sessions) (hp : PortPath p s n t) : t.Sessions := by
  refine hp.keeps h (fun _ _ h => h.same rfl) (fun u h => ?_) fun _ _ h ha => h.acted ha
  rw [State.restartLease_eq]
  exact h.restart p

/-- A lapse is completed in stage (a), where no batch is Applying, so that a Lapsing port has none. -/
theorem completeLapse (h : s.Sessions) (ha : s.someApplying = false) (field : Byte) (p : Port) :
    (s.completeLapse field p).Sessions := by
  unfold State.completeLapse
  split
  · rename_i hin
    have hs : (s.session p).state = .lapsing := (h p).entry.lapseSet.1 hin
    have hnone : ∀ b ∈ s.queue, b.port ≠ p := by
      intro b hb hp
      have happlying := ((h p).batches b hb hp).2.1 (by rw [hs]; decide)
      cases (State.queued_of_not_someApplying ha hb).symm.trans happlying
    refine told ?_ (told_lapseSession _ p field)
    have hclaims : (s.lapseClaims p).Sessions := h.same (by simp only [State.lapseClaims])
    refine State.Sessions.same
      (s := (s.lapseClaims p).setSession p { (s.lapseClaims p).session p with state := .detached, inLapseSet := false })
      (hclaims.setSession ?_) (by simp)
    have hlapsing : ((s.lapseClaims p).session p).state = .lapsing := hs
    refine (hclaims p).setVacant ((hclaims p).entry.lapseEnded hlapsing) ((hclaims p).staged ?_) hnone
    rw [hlapsing]
    decide
  · exact h

theorem lapsesCompleted (h : s.Sessions) (ha : s.someApplying = false) (field : Byte) :
    (s.lapsesCompleted field).Sessions := by
  have hqueue : ∀ (u : State) p, u.someApplying = false → (u.completeLapse field p).someApplying = false := by
    intro u p hu
    obtain ⟨pl, g, pc, bc, x, v, hf⟩ := u.completeLapse_frame field p
    rw [hf]
    exact hu
  unfold State.lapsesCompleted
  exact ((h.completeLapse ha field 0).completeLapse (hqueue _ 0 ha) field 1).completeLapse
    (hqueue _ 1 (hqueue _ 0 ha)) field 2

theorem deviceReset (nreset addrsel : Bool) (supsel : BitVec 2) (pending : List Instr) :
    (State.deviceReset nreset addrsel supsel pending).Sessions := by
  intro p
  have hreset : (Vector.replicate 3 Session.reset)[p] = Session.reset ∧ (Vector.replicate 3 Staging.empty)[p] = .empty := by
    revert p
    decide
  have hsession : (State.deviceReset nreset addrsel supsel pending).session p = .reset := hreset.1
  have hstaged : (State.deviceReset nreset addrsel supsel pending).staged p = .empty := hreset.2
  refine ⟨?_, fun _ => hstaged, fun _ => by rw [hstaged]; rfl, fun b hb => by cases hb⟩
  rw [hsession]
  have hset : Session.reset.inLapseSet = true ↔ Session.reset.state = .lapsing := by decide
  exact ⟨hset, fun h => absurd rfl h, fun h => absurd rfl h, fun h => (by cases h), BitVec.le_refl _, fun _ => rfl,
    fun h => (by cases h)⟩

theorem scanBatch (h : s.Sessions) (w : Window) (b : Batch) : (s.scanBatch w b).Sessions := by
  have hscanned : Descends s.queue (markScanned s.queue) := .modifyFirst _ (by exact fun _ => ⟨rfl, rfl, id⟩) _
  have happlying : Descends s.queue (markApplying s.queue) :=
    .modifyFirst _ (by exact fun _ => ⟨rfl, rfl, fun _ => rfl⟩) _
  unfold State.scanBatch
  split
  · exact h.congr rfl s.stagesKept_refl hscanned
  · exact h.congr rfl s.stagesKept_refl hscanned
  · exact h.congr rfl s.stagesKept_refl hscanned
  · refine told ?_ (told_reportRejected _ _ _ _ _ _)
    exact h.congr rfl s.stagesKept_refl (.of_sublist List.eraseP_sublist)
  · exact h.same rfl
  · exact h.congr rfl s.stagesKept_refl happlying

theorem judged (h : s.Sessions) (field : Byte) (b : Batch) : (s.judged field b).Sessions := by
  rcases s.judged_cases field b with ⟨-, ht⟩ | ht
  · refine told ?_ ht
    exact h.congr rfl s.stagesKept_refl (.of_sublist List.eraseP_sublist)
  · refine told ?_ ht
    exact h.congr rfl s.stagesKept_refl (.of_sublist List.eraseP_sublist)

theorem compared (h : s.Sessions) : s.compared.Sessions := by
  refine foldl_keeps (P := State.Sessions) (f := State.comparePlane) (fun u q hu => ?_) allPlanes h
  unfold State.comparePlane
  split
  · exact hu
  · refine told ?_ (told_postComparison _ q _)
    exact hu.same rfl

theorem fieldStart (h : s.Sessions) (newScan : Bool) : (s.endBlanking.takeScan.beginField newScan).Sessions := by
  have hended : s.blankingEnded.Sessions := h.same rfl
  have hblank := hended.told (told_endBlanking s)
  have htaken : s.endBlanking.takeScan.Sessions := by
    cases hm : s.endBlanking.live.pendingMark with
    | false => rwa [State.takeScan_of_not_pending hm]
    | true =>
      refine told ?_ (told_takeScan hm)
      exact hblank.same rfl
  obtain ⟨g, w, held, owners, hf⟩ := s.endBlanking.takeScan.beginField_frame newScan
  rw [hf]
  exact htaken.same rfl

theorem stepTo (h : s.Sessions) (happlying : ∀ w, s.window = some w → s.someApplying = true → w.stage = .scan)
    (hst : StepTo s t) : t.Sessions := by
  cases hst with
  | stays => exact h
  | port p hp => exact h.portPath hp
  | idle =>
    rw [State.edge_frame]
    exact h.same rfl
  | reset addrsel supsel => exact (deviceReset false addrsel supsel s.pending).same rfl
  | release =>
    obtain ⟨g, w, held, owners, hf⟩ := State.beginField_frame { s with nreset := true } false
    rw [hf]
    exact h.same rfl
  | fieldStart =>
    exact fieldStart (s := { s with compose := { s.compose with pipe := .lineEnd true } }) (h.same rfl) _
  | waitEnds _ p w field => exact complete (s := s.setWaiter p none) (h.same rfl) p .ok [field]
  | refIn => exact h.same rfl
  | pixel _ x y =>
    rw [State.edge_frame]
    exact h.same rfl
  | blankStart =>
    refine h.congr rfl s.stagesKept_refl (.map (fun b => ?_) _)
    unfold Batch.joined
    split <;> exact ⟨rfl, rfl, id⟩
  | faults => exact (h.told (told_faultsReported s)).same rfl
  | compare => exact h.compared.same (by dsimp only)
  | lapses _ w hw hstage =>
    have hnot : s.someApplying = false := by
      cases ha : s.someApplying with
      | false => rfl
      | true => cases hstage.symm.trans (happlying w hw ha)
    exact (h.lapsesCompleted hnot w.field).same (by dsimp only)
  | revocations _ w =>
    obtain ⟨pl, g, pc, bc, v, hf⟩ := s.revocationsCompleted_frame w.field
    rw [hf]
    exact h.same rfl
  | scanned _ w b => exact h.scanBatch w b
  | scanEnds => exact h.same rfl
  | judged _ w b => exact h.judged w.field b
  | countdown _ w =>
    refine h.congr rfl s.stagesKept_refl (.map (fun b => ?_) _)
    unfold Batch.countedDown
    simp only
    split <;> exact ⟨rfl, rfl, id⟩
  | sealTimeout _ p b =>
    refine complete ?_ p _ _
    exact h.congr rfl s.stagesKept_refl (.modifyFirst _ (by exact fun _ => ⟨rfl, rfl, id⟩) _)
  | leaseTick => exact ((h.tickLease 0).tickLease 1).tickLease 2
  | leaseExpiry _ p he => exact h.beginLapse (State.attached_of_expiryDue he) .expired

end State.Sessions

/-- Settles O59: a session changes with its Staged List and its batches; a lapse is completed before any batch of the window
is Applying. -/
theorem sessionLawsAreKept : Obligations.SessionLawsAreKept := by
  unfold Obligations.SessionLawsAreKept
  intro s t hw hs hst
  have hfronted : s.fronted.Sessions := State.Sessions.same (s := s) (sessionLaw_iff.1 hs) rfl
  exact sessionLaw_iff.2 (hfronted.stepTo hw.applying (stepTo_of_step hst))

end Sys2Proof.Machine
end

section
/-! The port interfaces, and the commands in flight (R160, R161, R165, R49, R74). -/

namespace Sys2Proof.Machine

/-! ### The commands that the owning blocks hold -/

theorem State.heldCommands_eq (s : State) (p : Port) :
    s.heldCommands p = (if s.timing.waiters[p].isSome then 1 else 0) + s.queue.countP (Batch.waitsFor p) := rfl

theorem State.heldCommands_congr {s t : State} (hw : t.timing.waiters = s.timing.waiters) (hq : t.queue = s.queue)
    (p : Port) : t.heldCommands p = s.heldCommands p := by
  rw [State.heldCommands_eq, State.heldCommands_eq, hw, hq]

theorem State.setWaiter_waiters (s : State) (p : Port) (w : Option Waiter) (k : Port) :
    (s.setWaiter p w).timing.waiters[k] = if k = p then w else s.timing.waiters[k] := by
  simp only [State.setWaiter, Fin.getElem_fin, Vector.getElem_set, Fin.ext_iff, eq_comm]

theorem countP_map_of_kept {α : Type} {f : α → Bool} {g : α → α} (h : ∀ a, f (g a) = f a) (l : List α) :
    (l.map g).countP f = l.countP f := by
  rw [List.countP_map]
  exact List.countP_congr fun a _ => by simp [h a]

theorem countP_modifyFirst_of_kept {α : Type} {f sel : α → Bool} {g : α → α} (h : ∀ a, f (g a) = f a) (l : List α) :
    (modifyFirst sel g l).countP f = l.countP f := by
  induction l with
  | nil => rfl
  | cons a rest ih =>
    unfold modifyFirst
    split
    · simp only [List.countP_cons, h]
    · simp only [List.countP_cons, ih]

/-- What the first element found leaves when it is taken out. -/
theorem countP_eraseP {α : Type} {f sel : α → Bool} {l : List α} {a : α} (h : l.find? sel = some a) :
    (l.eraseP sel).countP f + (if f a then 1 else 0) = l.countP f := by
  obtain ⟨left, right, rfl, hl, ha⟩ := split_of_find? h
  rw [eraseP_split hl ha]
  simp only [List.countP_append, List.countP_cons]
  omega

/-- What the first element found leaves when it is changed so that it does not count any more. -/
theorem countP_modifyFirst_of_lost {α : Type} {f sel : α → Bool} {g : α → α} {l : List α} {a : α}
    (h : l.find? sel = some a) (hlost : f (g a) = false) :
    (modifyFirst sel g l).countP f + (if f a then 1 else 0) = l.countP f := by
  obtain ⟨left, right, rfl, hl, ha⟩ := split_of_find? h
  rw [modifyFirst_split hl ha]
  simp only [List.countP_append, List.countP_cons, hlost, Bool.false_eq_true, if_false]
  omega

/-! ### One port -/

theorem Cpi.Lawful.completed {c : Cpi} (h : c.Lawful) (hx : c.state = .executing) (k : Completion) (out : List Byte) :
    (c.completed k out).Lawful := by
  have hbuffer : c.buffer = [] ∧ c.long = false := h.buffer.2 (by rw [hx]; decide)
  have hnot : c.bus ≠ .writing ∧ c.bus ≠ .readNone := by
    refine ⟨fun hb => ?_, fun hb => ?_⟩
    · cases hx.symm.trans (h.writing.1 hb)
    · cases hx.symm.trans (h.readNone hb)
  have hbus : (c.completed k out).bus ≠ .writing ∧ (c.completed k out).bus ≠ .readNone
      ∧ (c.completed k out).bus ≠ .stretching := by
    unfold Cpi.completed
    simp only
    split
    · decide
    · exact ⟨hnot.1, hnot.2, ‹_›⟩
  refine ⟨?_, ?_, ?_, fun _ => rfl, ?_, ?_, ⟨h.buffer.1, fun _ => hbuffer⟩, fun _ => rfl, ?_, ?_, ?_, ?_, ?_⟩
  case refine_5 => exact ⟨fun hb => absurd hb hbus.1, fun hr => (by cases hr)⟩
  case refine_6 => exact fun hb => absurd hb hbus.2.1
  case refine_7 => exact fun hb => absurd hb hbus.2.2
  all_goals simp [Cpi.completed]

/-- The port interface is lawful, and Executing exactly while one command of the port is held. -/
def State.PortAt (s : State) (p : Port) : Prop :=
  (s.cpi p).Lawful ∧ s.heldCommands p = if (s.cpi p).state = .executing then 1 else 0

/-- The command of the port has left its block, and its completion has not arrived yet. -/
def State.Owed (s : State) (p : Port) : Prop :=
  (s.cpi p).Lawful ∧ (s.cpi p).state = .executing ∧ s.heldCommands p = 0

namespace State

variable {s t : State} {p q : Port}

theorem PortAt.congr (h : s.PortAt p) (hc : t.cpi p = s.cpi p) (hh : t.heldCommands p = s.heldCommands p) : t.PortAt p := by
  rw [State.PortAt, hc, hh]
  exact h

theorem Owed.congr (h : s.Owed p) (hc : t.cpi p = s.cpi p) (hh : t.heldCommands p = s.heldCommands p) : t.Owed p := by
  rw [State.Owed, hc, hh]
  exact h

theorem PortAt.executing (h : s.PortAt p) (hh : s.heldCommands p ≠ 0) :
    (s.cpi p).state = .executing ∧ s.heldCommands p = 1 := by
  obtain ⟨-, he⟩ := h
  split at he
  · exact ⟨‹_›, he⟩
  · exact absurd he hh

theorem PortAt.held_eq_zero (h : s.PortAt p) (hx : (s.cpi p).state ≠ .executing) : s.heldCommands p = 0 := by
  rw [h.2, if_neg hx]

theorem cpi_complete_other (h : q ≠ p) (s : State) (k : Completion) (out : List Byte) :
    (s.complete p k out).cpi q = s.cpi q := by
  rw [State.complete_eq]
  split
  · rw [State.setSession_cpi, State.setCpi_cpi, if_neg h]
  · rfl

theorem heldCommands_complete (s : State) (p : Port) (k : Completion) (out : List Byte) (q : Port) :
    (s.complete p k out).heldCommands q = s.heldCommands q := by
  have hframe : Told s (s.complete p k out) := .complete .refl p k out
  exact heldCommands_congr (congrArg Timing.waiters hframe.timing) hframe.queue q

/-- The completion that is owed arrives. -/
theorem Owed.complete (h : s.Owed p) (k : Completion) (out : List Byte) : (s.complete p k out).PortAt p := by
  obtain ⟨hl, hx, hh⟩ := h
  have hc : (s.complete p k out).cpi p = (s.cpi p).completed k out := by
    rw [State.complete_eq, if_pos hx, State.setSession_cpi, State.setCpi_cpi, if_pos rfl]
  refine ⟨hc ▸ hl.completed hx k out, ?_⟩
  rw [heldCommands_complete, hh, hc]
  rfl

end State

/-! ### Every port -/

/-- Every port interface is lawful, with its command in flight. -/
def State.Interfaces (s : State) : Prop := ∀ p, s.PortAt p

theorem interfaces_iff {s : State} : PortLaw s ∧ InFlightLaw s ↔ s.Interfaces :=
  ⟨fun ⟨hp, hf⟩ p => ⟨hp p, hf p⟩, fun h => ⟨fun p => (h p).1, fun p => (h p).2⟩⟩

/-- The batch has left the queue, and what its port is told of it is still to come. -/
def State.Leaving (s : State) (b : Batch) : Prop :=
  (∀ p, p ≠ b.port → s.PortAt p) ∧ (if b.wait then s.Owed b.port else s.PortAt b.port)

/-- The wait of the port's SEAL has run out: its batch goes on without it (R95). -/
def State.waitRunOut (s : State) (p : Port) : State :=
  { s with queue := modifyFirst (Batch.timeoutDue p) (fun b => { b with wait := false, timedOut := none }) s.queue }

namespace State.Interfaces

variable {s t : State}

theorem congr (h : s.Interfaces) (hc : t.cpis = s.cpis) (hh : ∀ p, t.heldCommands p = s.heldCommands p) : t.Interfaces := by
  intro p
  refine (h p).congr ?_ (hh p)
  rw [State.cpi, hc]
  rfl

theorem same (h : s.Interfaces) (hsame : (t.cpis, t.timing.waiters, t.queue) = (s.cpis, s.timing.waiters, s.queue)) :
    t.Interfaces := by
  simp only [Prod.mk.injEq] at hsame
  obtain ⟨hc, hw, hq⟩ := hsame
  exact h.congr hc (State.heldCommands_congr hw hq)

theorem sameButQueues (h : s.Interfaces) (hs : s.SameButQueues t) : t.Interfaces := by
  obtain ⟨v, rfl⟩ := hs
  exact h.same rfl

/-- Every port but one is as it should be, and the one is owed the completion that arrives. -/
theorem of_owed {p : Port} (hother : ∀ q, q ≠ p → s.PortAt q) (hp : s.Owed p) (k : Completion) (out : List Byte) :
    (s.complete p k out).Interfaces := by
  intro q
  by_cases hq : q = p
  · rw [hq]
    exact hp.complete k out
  · exact (hother q hq).congr (State.cpi_complete_other hq s k out) (State.heldCommands_complete s p k out q)

/-! #### Batches that leave -/

theorem erased (h : s.Interfaces) {sel : Batch → Bool} {b : Batch} (hb : s.queue.find? sel = some b)
    (hc : t.cpis = s.cpis) (hw : t.timing.waiters = s.timing.waiters) (hq : t.queue = s.queue.eraseP sel) : t.Leaving b := by
  have hheld : ∀ p, t.heldCommands p + (if b.waitsFor p then 1 else 0) = s.heldCommands p := fun p => by
    have hcount := countP_eraseP (f := Batch.waitsFor p) hb
    rw [State.heldCommands_eq, State.heldCommands_eq, hw, hq]
    omega
  have hcpi : ∀ p, t.cpi p = s.cpi p := fun p => by
    rw [State.cpi, hc]
    rfl
  refine ⟨fun p hp => ?_, ?_⟩
  · refine (h p).congr (hcpi p) ?_
    have hne : b.waitsFor p = false := by
      unfold Batch.waitsFor
      rw [beq_eq_false_iff_ne.2 (Ne.symm hp)]
      rfl
    have hp := hheld p
    rwa [hne] at hp
  · have hport := hheld b.port
    cases hwait : b.wait with
    | false =>
      refine (h b.port).congr (hcpi b.port) ?_
      simp only [Batch.waitsFor, hwait, Bool.and_false, Bool.false_eq_true, if_false] at hport
      exact hport
    | true =>
      simp only [Batch.waitsFor, hwait, beq_self_eq_true, Bool.and_true, if_true] at hport
      obtain ⟨hx, hone⟩ := (h b.port).executing (by omega)
      refine ⟨?_, ?_, by omega⟩
      · rw [hcpi]
        exact (h b.port).1
      · rw [hcpi]
        exact hx

/-- What a departure tells: a TIMEOUT that is still due, and then the outcome, by the completion of a SEAL that waits or by
a notice. -/
theorem departed {b : Batch} (h : s.Leaving b) (e : HistoryEntry) (k : Completion) (out : List Byte) (n : Notice) :
    (if b.sealWaits then ((s.overdueTimeout b).record b.port e).complete b.port k out
      else ((s.overdueTimeout b).record b.port e).post b.port n : State).Interfaces := by
  obtain ⟨hother, hport⟩ := h
  have hposted : ∀ u : State, u.Interfaces → ((u.record b.port e).post b.port n).Interfaces := fun u hu => by
    have hrecorded : (u.record b.port e).Interfaces := hu.same rfl
    exact hrecorded.sameButQueues (State.sameButQueues_post _ _ _)
  cases hwait : b.wait with
  | false =>
    rw [hwait, if_neg (by decide)] at hport
    have hall : s.Interfaces := fun p => by
      by_cases hp : p = b.port
      · rw [hp]
        exact hport
      · exact hother p hp
    rw [State.overdueTimeout_none (.inl hwait), if_neg (by simp [Batch.sealWaits, hwait])]
    exact hposted s hall
  | true =>
    rw [hwait, if_pos rfl] at hport
    cases hdue : b.timedOut with
    | none =>
      rw [State.overdueTimeout_none (.inr hdue), if_pos (by simp [Batch.sealWaits, hwait, hdue])]
      exact of_owed (s := s.record b.port e) (fun p hp => (hother p hp).congr rfl rfl) (hport.congr rfl rfl) k out
    | some field =>
      rw [State.overdueTimeout_eq hwait hdue, if_neg (by simp [Batch.sealWaits, hdue])]
      exact hposted _ (of_owed hother hport _ _)

theorem reportApplied {b : Batch} (h : s.Leaving b) (field : Byte) (clamped : Bool) :
    (s.reportApplied field b clamped).Interfaces := departed h _ _ _ _

theorem reportRejected {b : Batch} (h : s.Leaving b) (field : Byte) (reason : Reason) (index : Nat) (r : Option Resource) :
    (s.reportRejected field b reason index r).Interfaces := departed h _ _ _ _

/-! #### Lapses -/

theorem purge_heldCommands (s : State) (p q : Port) :
    (s.purge p).heldCommands q =
      (if s.timing.waiters[q].isSome then 1 else 0) + if q = p then 0 else s.queue.countP (Batch.waitsFor q) := by
  rw [State.heldCommands_eq]
  congr 1
  have hqueue : (s.purge p).queue =
      (s.queue.filter fun b => !b.purgedBy p).map fun b => if b.port = p then { b with wait := false } else b := rfl
  rw [hqueue, List.countP_map, List.countP_filter]
  split
  · rename_i hq
    subst hq
    rw [List.countP_eq_zero]
    intro b _
    by_cases hb : b.port = q <;> simp [Batch.waitsFor, hb]
  · rename_i hq
    refine List.countP_congr fun b _ => ?_
    by_cases hb : b.port = p
    · have hne : ¬ p = q := fun h => hq h.symm
      simp [Batch.waitsFor, Batch.purgedBy, hb, hne]
    · simp [Batch.waitsFor, Batch.purgedBy, hb]

/-- The lapse of a port ends its command in flight, if it has one; a port that has none keeps its interface. -/
theorem beginLapse (h : s.Interfaces) (p : Port) (cause : LapseCause) : (s.beginLapse p cause).Interfaces := by
  have hbegun : ∀ q, (s.lapseBegun p cause).heldCommands q =
      (if s.timing.waiters[q].isSome then 1 else 0) + if q = p then 0 else s.queue.countP (Batch.waitsFor q) :=
    fun q => purge_heldCommands _ p q
  have hother : ∀ q, q ≠ p → (s.lapseBegun p cause).PortAt q := fun q hq =>
    (h q).congr rfl (by rw [hbegun, if_neg hq]; rfl)
  have hwaiters : (s.lapseBegun p cause).timing.waiters = s.timing.waiters := rfl
  rw [State.beginLapse_eq]
  unfold State.endInFlight
  rw [hwaiters]
  split
  · rename_i w _ hw
    have hheld : s.heldCommands p ≠ 0 := by
      rw [State.heldCommands_eq, hw]
      simp
    have howed : ((s.lapseBegun p cause).setWaiter p none).Owed p := by
      refine ⟨(h p).1, ((h p).executing hheld).1, ?_⟩
      rw [State.heldCommands_eq, State.setWaiter_waiters, if_pos rfl]
      have hcount := hbegun p
      rw [State.heldCommands_eq, if_pos rfl, hwaiters, Nat.add_left_cancel_iff] at hcount
      exact (Nat.zero_add _).trans hcount
    have hrest : ∀ q, q ≠ p → ((s.lapseBegun p cause).setWaiter p none).PortAt q := fun q hq => by
      refine (hother q hq).congr rfl ?_
      rw [State.heldCommands_eq, State.setWaiter_waiters, if_neg hq]
      rfl
    unfold State.endWaitField
    split <;> exact of_owed hrest howed _ _
  · rename_i b hw hb
    have hmem := List.mem_of_find?_eq_some hb
    have hwaits := List.find?_some hb
    have hcount : 0 < s.queue.countP (Batch.waitsFor p) := List.countP_pos_iff.2 ⟨b, hmem, hwaits⟩
    have hheld : s.heldCommands p ≠ 0 := by
      rw [State.heldCommands_eq]
      omega
    have howed : (s.lapseBegun p cause).Owed p := by
      refine ⟨(h p).1, ((h p).executing hheld).1, ?_⟩
      rw [hbegun, if_pos rfl, hw]
      rfl
    unfold State.endSeal
    split <;> exact of_owed hother howed _ _
  · rename_i hw hb
    have hnone : s.queue.countP (Batch.waitsFor p) = 0 := by
      rw [List.countP_eq_zero]
      exact List.find?_eq_none.1 hb
    intro q
    by_cases hq : q = p
    · refine (h q).congr rfl ?_
      rw [hbegun, if_pos hq, State.heldCommands_eq, hq, hnone]
    · exact hother q hq

theorem tickLease (h : s.Interfaces) (p : Port) : (s.tickLease p).Interfaces := by
  rcases s.tickLease_cases p with ⟨-, ht⟩ | ⟨-, -, ht⟩ | ht <;> rw [ht]
  · exact h.beginLapse p .expired
  · exact h.same rfl
  · exact h

/-- A lapse leaves alone the interface of a port that is not Executing. -/
theorem beginLapse_cpi {s : State} {p q : Port} (hx : (s.cpi p).state ≠ .executing) (cause : LapseCause) :
    (s.beginLapse q cause).cpi p = s.cpi p := by
  by_cases hp : p = q
  · subst hp
    have hcomplete : ∀ u : State, u.cpi p = s.cpi p → ∀ k out, (u.complete p k out).cpi p = s.cpi p := fun u hu k out => by
      rw [State.complete_of_not_executing (by rw [hu]; exact hx)]
      exact hu
    rw [State.beginLapse_eq]
    unfold State.endInFlight State.endWaitField State.endSeal
    repeat' split
    · exact hcomplete ((s.lapseBegun p cause).setWaiter p none) rfl _ _
    · exact hcomplete ((s.lapseBegun p cause).setWaiter p none) rfl _ _
    · exact hcomplete (s.lapseBegun p cause) rfl _ _
    · exact hcomplete (s.lapseBegun p cause) rfl _ _
    · rfl
  · exact (State.beginLapse_other hp cause).1

/-! #### Commands -/

/-- What a command leaves of the interfaces before it is answered: it is done, or it is held by a block. -/
def Acting (p : Port) (s : State) (r : Reply × State) : Prop :=
  ((∃ k out, r.1 = .done k out) ∧ r.2.Interfaces ∧ r.2.cpi p = s.cpi p)
  ∨ (r.1 = .inFlight ∧ r.2.cpis = s.cpis ∧ r.2.heldCommands p = s.heldCommands p + 1
    ∧ ∀ q, q ≠ p → r.2.heldCommands q = s.heldCommands q)

theorem acting {p : Port} {r : Reply × State} (h : s.Interfaces) (hx : (s.cpi p).state ≠ .executing) (ha : Acted p s r) :
    Acting p s r := by
  have hheld := (h p).held_eq_zero hx
  cases ha with
  | lapsed k out q cause => exact .inl ⟨⟨k, out, rfl⟩, h.beginLapse q cause, beginLapse_cpi hx cause⟩
  | claimed k out r => cases r <;> exact .inl ⟨⟨k, out, rfl⟩, h.same rfl, rfl⟩
  | released k out r => cases r <;> exact .inl ⟨⟨k, out, rfl⟩, h.same rfl, rfl⟩
  | revoked k out r => cases r <;> exact .inl ⟨⟨k, out, rfl⟩, h.same rfl, rfl⟩
  | sealed reply a hs hne hq hp hw =>
    have hcount : ∀ q, (s.sealed p (sealedBatch p a s)).heldCommands q =
        s.heldCommands q + if (sealedBatch p a s).waitsFor q then 1 else 0 := fun q => by
      rw [State.heldCommands_eq, State.heldCommands_eq]
      have hqueue : (s.sealed p (sealedBatch p a s)).queue = s.queue ++ [sealedBatch p a s] := rfl
      rw [hqueue, List.countP_append, List.countP_singleton, ← Nat.add_assoc]
      rfl
    have hwaits : ∀ q, (sealedBatch p a s).waitsFor q = (p == q && a.wait) := fun q => rfl
    cases hwait : a.wait with
    | true =>
      refine .inr ⟨hw.2 hwait, rfl, ?_, fun q hq => ?_⟩
      · rw [hcount, hwaits, hwait, beq_self_eq_true]
        rfl
      · rw [hcount, hwaits, beq_eq_false_iff_ne.2 (Ne.symm hq)]
        rfl
    | false =>
      have hdone : ∃ k out, reply = .done k out := by
        cases reply with
        | done k out => exact ⟨k, out, rfl⟩
        | inFlight => cases hwait.symm.trans (hw.1 rfl)
      refine .inl ⟨hdone, h.congr rfl fun q => ?_, rfl⟩
      rw [hcount, hwaits, hwait, Bool.and_false]
      rfl
  | withdrawn k out n b hb hst e =>
    have hleft : State.Leaving { s with queue := s.queue.eraseP (Batch.isNamed p (s.session p).number n) } b :=
      h.erased hb rfl rfl rfl
    have hname := List.find?_some hb
    have hport : b.port = p := by
      simp only [Batch.isNamed, Bool.and_eq_true, beq_iff_eq] at hname
      exact hname.1.1
    obtain ⟨hother, hself⟩ := hleft
    have hall : State.Interfaces { s with queue := s.queue.eraseP (Batch.isNamed p (s.session p).number n) } := by
      intro q
      by_cases hq : q = b.port
      · rw [hq]
        split at hself
        · exact absurd hself.2.1 (by rw [hport]; exact hx)
        · exact hself
      · exact hother q hq
    exact .inl ⟨⟨k, out, rfl⟩, hall.same rfl, rfl⟩
  | waits n =>
    have hfree : s.timing.waiters[p].isSome = false := by
      rw [State.heldCommands_eq] at hheld
      refine Bool.eq_false_iff.2 fun hsome => ?_
      rw [if_pos hsome] at hheld
      omega
    refine .inr ⟨rfl, rfl, ?_, fun q hq => ?_⟩
    · rw [State.heldCommands_eq, State.heldCommands_eq, State.setWaiter_waiters, if_pos rfl, hfree]
      simp only [Option.isSome_some, if_true, Bool.false_eq_true, if_false, State.setWaiter_queue]
      omega
    · rw [State.heldCommands_eq, State.heldCommands_eq, State.setWaiter_waiters, if_neg hq]
      rfl
  | answered k out | attached k out | detached k out | staged k out | emptied k out | freeValues k out | delivered k out =>
    exact .inl ⟨⟨k, out, rfl⟩, h.same rfl, rfl⟩

theorem setCpi {p : Port} {c : Cpi} (h : s.Interfaces) (hc : (s.cpi p).Moves c) : (s.setCpi p c).Interfaces := by
  intro q
  by_cases hq : q = p
  · subst hq
    obtain ⟨hl, hx⟩ := hc (h q).1
    have hself : (s.setCpi q c).cpi q = c := by simp
    refine ⟨by rw [hself]; exact hl, ?_⟩
    rw [hself]
    simp only [hx]
    exact (h q).2
  · exact (h q).congr (by rw [State.setCpi_cpi, if_neg hq]) rfl

theorem command {p : Port} {r : Reply × State} (h : s.Interfaces) (hb : (s.cpi p).bus = .writing) (code : Byte)
    (ha : Acted p s r) : (r.2.finish p code r.1).Interfaces := by
  have hx : (s.cpi p).state ≠ .executing := by
    rw [(h p).1.writing.1 hb]
    decide
  rcases h.acting hx ha with ⟨⟨k, out, hr⟩, hall, hcpi⟩ | ⟨hr, hcpis, hself, hother⟩ <;> rw [hr]
  · have hrestarted : (r.2.restartLease p).Interfaces := by
      rw [State.restartLease_eq]
      exact hall.same rfl
    have hcpi' : (r.2.restartLease p).cpi p = s.cpi p := by
      rw [State.restartLease_eq]
      exact hcpi
    exact hrestarted.setCpi (Cpi.moves_answered (by rw [hcpi']; exact hb) k code out)
  · intro q
    have hcpi : ∀ k, r.2.cpi k = s.cpi k := fun k => by
      rw [State.cpi, hcpis]
      rfl
    have hset : (r.2.finish p code .inFlight).cpi q = if q = p then (r.2.cpi p).launched code else r.2.cpi q :=
      State.setCpi_cpi r.2 p _ q
    have hheld : (r.2.finish p code .inFlight).heldCommands q = r.2.heldCommands q := rfl
    by_cases hq : q = p
    · subst hq
      rw [State.PortAt, hset, if_pos rfl, hheld, hself, (h q).held_eq_zero hx]
      exact ⟨Cpi.lawful_launched _ code, rfl⟩
    · refine (h q).congr ?_ (hheld.trans (hother q hq))
      rw [hset, if_neg hq, hcpi]

theorem portPath {p : Port} {n : Nat} (h : s.Interfaces) (hp : PortPath p s n t) : t.Interfaces := by
  induction hp with
  | refl => exact h
  | more _ ih => exact ih
  | setCpi _ hc ih => exact ih.setCpi hc
  | command _ hb code ha ih => exact ih.command hb code ha

/-! #### The rows -/

theorem beginField (h : s.Interfaces) (newScan : Bool) : (s.beginField newScan).Interfaces := by
  refine h.congr rfl fun p => ?_
  have hwaiter : (s.beginField newScan).timing.waiters[p].isSome = s.timing.waiters[p].isSome := by
    simp [State.beginField, Timing.startField]
  rw [State.heldCommands_eq, State.heldCommands_eq, hwaiter]
  rfl

theorem mapQueue (h : s.Interfaces) {f : Batch → Batch} (hf : ∀ b p, (f b).waitsFor p = b.waitsFor p)
    (hc : t.cpis = s.cpis) (hw : t.timing.waiters = s.timing.waiters) (hq : t.queue = s.queue.map f) : t.Interfaces := by
  refine h.congr hc fun p => ?_
  rw [State.heldCommands_eq, State.heldCommands_eq, hw, hq, countP_map_of_kept fun b => hf b p]

theorem markQueue (h : s.Interfaces) {sel : Batch → Bool} {f : Batch → Batch} (hf : ∀ b p, (f b).waitsFor p = b.waitsFor p)
    (hc : t.cpis = s.cpis) (hw : t.timing.waiters = s.timing.waiters) (hq : t.queue = modifyFirst sel f s.queue) :
    t.Interfaces := by
  refine h.congr hc fun p => ?_
  rw [State.heldCommands_eq, State.heldCommands_eq, hw, hq, countP_modifyFirst_of_kept fun b => hf b p]

theorem scanBatch (h : s.Interfaces) (w : Window) {b : Batch} (hb : s.queue.find? Batch.unscanned = some b) :
    (s.scanBatch w b).Interfaces := by
  unfold State.scanBatch
  split
  · exact h.markQueue (by exact fun _ _ => rfl) rfl rfl rfl
  · exact h.markQueue (by exact fun _ _ => rfl) rfl rfl rfl
  · exact h.markQueue (by exact fun _ _ => rfl) rfl rfl rfl
  · refine reportRejected ?_ _ _ _ _
    exact h.erased hb rfl rfl rfl
  · exact h.same rfl
  · exact h.markQueue (by exact fun _ _ => rfl) rfl rfl rfl

theorem judged (h : s.Interfaces) (field : Byte) {b : Batch} (hb : s.queue.find? Batch.isApplying = some b) :
    (s.judged field b).Interfaces := by
  unfold State.judged
  simp only
  split
  · refine reportApplied ?_ _ _
    exact h.erased hb rfl rfl rfl
  · refine reportRejected ?_ _ _ _ _
    exact h.erased hb rfl rfl rfl

theorem waitEnds (h : s.Interfaces) {p : Port} {w : Waiter} (hw : s.timing.waiters[p] = some w) (field : Byte) :
    ((s.setWaiter p none).complete p .ok [field]).Interfaces := by
  have hheld : s.heldCommands p ≠ 0 := by
    rw [State.heldCommands_eq, hw]
    simp
  obtain ⟨hx, hone⟩ := (h p).executing hheld
  have hother : ∀ q, q ≠ p → (s.setWaiter p none).PortAt q := fun q hq => by
    refine (h q).congr rfl ?_
    rw [State.heldCommands_eq, State.setWaiter_waiters, if_neg hq]
    rfl
  refine of_owed hother ⟨?_, ?_, ?_⟩ _ _
  · exact (h p).1
  · exact hx
  · rw [State.heldCommands_eq, hw] at hone
    rw [State.heldCommands_eq, State.setWaiter_waiters, if_pos rfl]
    simp only [Option.isSome_some, Option.isSome_none, Bool.false_eq_true, if_true, if_false, State.setWaiter_queue] at hone ⊢
    omega

theorem sealTimeout (h : s.Interfaces) {p : Port} {b : Batch} (hb : s.queue.find? (Batch.timeoutDue p) = some b)
    (k : Completion) (out : List Byte) : ((s.waitRunOut p).complete p k out).Interfaces := by
  have hdue := List.find?_some hb
  simp only [Batch.timeoutDue, Bool.and_eq_true, beq_iff_eq] at hdue
  obtain ⟨⟨hport, hwait⟩, -⟩ := hdue
  have hheld : ∀ q, (s.waitRunOut p).heldCommands q + (if b.waitsFor q then 1 else 0) = s.heldCommands q := fun q => by
    have hcount := countP_modifyFirst_of_lost (f := Batch.waitsFor q)
      (g := fun b : Batch => { b with wait := false, timedOut := none }) hb (by simp [Batch.waitsFor])
    have hwaiters : (s.waitRunOut p).timing.waiters = s.timing.waiters := rfl
    have hqueue : (s.waitRunOut p).queue =
      modifyFirst (Batch.timeoutDue p) (fun b => { b with wait := false, timedOut := none }) s.queue := rfl
    rw [State.heldCommands_eq, State.heldCommands_eq, hwaiters, hqueue]
    omega
  have hother : ∀ q, q ≠ p → (s.waitRunOut p).PortAt q := fun q hq => by
    refine (h q).congr rfl ?_
    have hq' := hheld q
    have hne : b.waitsFor q = false := by
      unfold Batch.waitsFor
      rw [hport, beq_eq_false_iff_ne.2 (Ne.symm hq)]
      rfl
    rwa [hne] at hq'
  have hp := hheld p
  have hwaits : b.waitsFor p = true := by simp [Batch.waitsFor, hport, hwait]
  rw [hwaits, if_pos rfl] at hp
  obtain ⟨hx, hone⟩ := (h p).executing (by omega)
  exact of_owed hother ⟨(h p).1, hx, by omega⟩ _ _

theorem deviceReset (nreset addrsel : Bool) (supsel : BitVec 2) (pending : List Instr) :
    (State.deviceReset nreset addrsel supsel pending).Interfaces := by
  intro p
  have hreset : (Vector.replicate 3 Cpi.reset)[p] = Cpi.reset ∧ Timing.reset.waiters[p] = none := by
    revert p
    decide
  have hcpi : (State.deviceReset nreset addrsel supsel pending).cpi p = .reset := hreset.1
  have hwaiter : (State.deviceReset nreset addrsel supsel pending).timing.waiters[p] = none := hreset.2
  refine ⟨?_, ?_⟩
  · rw [hcpi]
    constructor <;> decide
  · rw [State.heldCommands_eq, hwaiter, hcpi]
    rfl

theorem edge (h : s.Interfaces) (a b : Sample) : (s.edge a b).Interfaces := by
  have hwaiters : (s.timing.advance s.live.scan).waiters = s.timing.waiters := by
    unfold Timing.advance
    split <;> rfl
  rw [State.edge_frame]
  refine h.congr rfl fun p => ?_
  rw [State.heldCommands_eq, State.heldCommands_eq]
  simp only [hwaiters]

theorem stepTo (h : s.Interfaces) (hst : StepTo s t) : t.Interfaces := by
  cases hst with
  | stays => exact h
  | port p hp => exact h.portPath hp
  | idle => exact h.edge _ _
  | reset addrsel supsel => exact (deviceReset false addrsel supsel s.pending).same rfl
  | release => exact beginField (s := { s with nreset := true }) (h.same rfl) false
  | fieldStart =>
    refine beginField ?_ _
    obtain ⟨v, hf⟩ :=
      State.takeScan_endBlanking_frame { s with compose := { s.compose with pipe := .lineEnd true } }
    rw [hf]
    split <;> exact h.same rfl
  | waitEnds _ p w field hw => exact h.waitEnds hw field
  | refIn => exact h.same rfl
  | pixel _ x y a b => exact edge (s := s.skipTo x y) (h.same rfl) a b
  | blankStart =>
    refine h.mapQueue (f := Batch.joined s.timing.field) (fun b p => ?_) rfl rfl rfl
    unfold Batch.joined
    split <;> rfl
  | faults => exact (h.sameButQueues s.sameButQueues_faultsReported).same rfl
  | compare =>
    obtain ⟨g, v, hf⟩ := s.compared_frame
    rw [hf]
    exact h.same rfl
  | lapses _ w =>
    obtain ⟨pl, g, pc, bc, x, v, hf⟩ := s.lapsesCompleted_frame w.field
    rw [hf]
    exact h.same rfl
  | revocations _ w =>
    obtain ⟨pl, g, pc, bc, v, hf⟩ := s.revocationsCompleted_frame w.field
    rw [hf]
    exact h.same rfl
  | scanned _ w b _ _ _ hb => exact h.scanBatch w hb
  | scanEnds => exact h.same rfl
  | judged _ w b _ hb => exact h.judged w.field hb
  | countdown _ w =>
    refine h.mapQueue (f := Batch.countedDown w.field) (fun b p => ?_) rfl rfl rfl
    unfold Batch.countedDown
    simp only
    split <;> rfl
  | sealTimeout _ p b hb => exact h.sealTimeout hb _ _
  | leaseTick => exact ((h.tickLease 0).tickLease 1).tickLease 2
  | leaseExpiry _ p => exact h.beginLapse p .expired

end State.Interfaces

/-- Settles O57: a command goes into flight as its block takes it, and comes back with the waiter or the batch that held
it. -/
theorem portStatesAndCommandsInFlightAreKept : Obligations.PortStatesAndCommandsInFlightAreKept := by
  unfold Obligations.PortStatesAndCommandsInFlightAreKept
  intro s t hp hf hst
  have hfronted : s.fronted.Interfaces := State.Interfaces.same (s := s) (interfaces_iff.1 ⟨hp, hf⟩) rfl
  exact interfaces_iff.2 (hfronted.stepTo (stepTo_of_step hst))

end Sys2Proof.Machine
end

section
/-! The step, and device reset (log entries 1 to 4, 25; R10, R16, R36, R40, R41, R172). -/

namespace Sys2Proof.Machine

/-- Settles O1: by the definition of a step. -/
theorem stepTakesTheFrontCommand : Obligations.StepTakesTheFrontCommand := by
  unfold Obligations.StepTakesTheFrontCommand
  exact fun _ _ _ => rfl

/-! ### One pixel period -/

theorem step_of_nil {s : State} (h : s.pending = []) : step s = .next s.tick := by
  simp [step, h]

theorem Timing.blankingEndsAt_iff (t : Timing) (scan : ScanRecord) (j : Nat) :
    t.blankingEndsAt scan j = true ↔
      match t.refState with
      | .free | .holdover => scan.vblank ≤ j
      | .locked => (t.pendingRef = true ∧ scan.vblank ≤ j) ∨ scan.vblank + scan.lossMargin ≤ j := by
  unfold Timing.blankingEndsAt
  cases t.refState <;> simp

theorem State.eventDue_iff (s : State) :
    s.eventDue = true ↔
      (s.timing.region = .active ∧ s.live.scan.height ≤ s.timing.line)
      ∨ (s.timing.region = .blanking ∧ s.timing.pixel = 0
        ∧ s.timing.blankingEndsAt s.live.scan s.timing.line = true)
      ∨ (s.timing.region = .blanking ∧ s.window.isSome = true ∧ s.live.scan.vblank ≤ s.timing.line + 1
        ∧ s.live.scan.width + s.live.scan.hblank ≤ s.timing.pixel + 1) := by
  unfold State.eventDue
  cases hr : s.timing.region <;> simp [State.windowEndDue, and_assoc]

theorem State.tick_of_waits {s : State} (h : s.nreset = false ∨ s.eventDue = true) : s.tick = s := by
  unfold State.tick
  rcases h with h | h <;> simp [h]

theorem State.sampleDue_iff (s : State) :
    s.sampleDue = true ↔
      (s.timing.region = .active ∧ s.timing.line < s.live.scan.height) ∧ 1 ≤ s.timing.pixel
        ∧ s.timing.pixel ≤ s.live.scan.width := by
  simp [State.sampleDue, and_assoc]

/-- An edge that finds no sample due, the stream pins standing as they are. -/
theorem State.edge_gone (s : State) :
    { s with
      timing := s.timing.advance s.live.scan
      compose :=
        { s.compose with
          pipe := s.compose.pipe.push s.periodWord, sampleA := s.compose.sampleA, sampleB := s.compose.sampleB } } =
      { s with
        timing :=
          if s.timing.pixel + 1 < s.live.scan.width + s.live.scan.hblank then
            { s.timing with pixel := s.timing.pixel + 1 }
          else { s.timing with line := s.timing.line + 1, pixel := 0 }
        compose :=
          { s.compose with
            pipe :=
              { pins := s.compose.pipe.second, second := s.compose.pipe.third, third := s.compose.pipe.newest
                newest :=
                  { data := ⟨0, 0, 0⟩
                    de := decide ((s.timing.region = .active ∧ s.timing.line < s.live.scan.height)
                      ∧ s.timing.pixel < s.live.scan.width)
                    hs := decide (s.live.scan.width ≤ s.timing.pixel)
                    vs := decide (s.timing.region = .blanking) } } } } := by
  have hde : s.atActivePixel =
      decide ((s.timing.region = .active ∧ s.timing.line < s.live.scan.height) ∧ s.timing.pixel < s.live.scan.width) := by
    rw [Bool.eq_iff_iff]
    simp [State.atActivePixel]
  have hvs : (s.timing.region == .blanking) = decide (s.timing.region = .blanking) := by
    cases s.timing.region <;> rfl
  simp only [OutPipe.push, State.periodWord, hde, hvs, Timing.advance, Colour.black]

/-- Settles O2: an idle step is an edge with the stream pins held, unless an event is due. -/
theorem idleStepIsOnePixelPeriod : Obligations.IdleStepIsOnePixelPeriod := by
  unfold Obligations.IdleStepIsOnePixelPeriod
  refine ⟨fun s hp => ?_, fun s => ⟨rfl, ?_, ?_⟩⟩
  · intro scan blankingEnds waits activeLine gone
    have hwaits : waits ↔ s.nreset = false ∨ s.eventDue = true := by
      rw [State.eventDue_iff, Timing.blankingEndsAt_iff] <;> rfl
    have hnot : ¬ waits → s.nreset = true ∧ s.eventDue = false := fun h => by
      rw [hwaits] at h
      simpa using h
    rw [step_of_nil hp]
    refine ⟨fun h => by rw [State.tick_of_waits (hwaits.1 h)], fun h ha h1 h2 => ?_, fun h hno => ?_⟩
    · obtain ⟨hn, he⟩ := hnot h
      rw [State.tick_eq hn he, State.edge_of_sampleDue (s.sampleDue_iff.2 ⟨ha, h1, h2⟩), State.edge_gone]
    · obtain ⟨hn, he⟩ := hnot h
      have hdue : s.sampleDue = false := by
        rw [Bool.eq_false_iff]
        intro hdue
        obtain ⟨ha, h1, h2⟩ := s.sampleDue_iff.1 hdue
        rcases hno ha with hz | hw
        · exact absurd h1 (by rw [hz]; decide)
        · exact absurd hw (Nat.not_lt_of_le h2)
      rw [State.tick_eq hn he, State.edge_of_not_sampleDue hdue, State.edge_gone]
  · simp [State.srcLs]
  · simp [State.srcFs, State.srcLs, and_comm, and_left_comm]

/-! ### Device reset -/

/-- Settles O4: value by value. -/
theorem resetStateHasTheValuesOfTheSpec : Obligations.ResetStateHasTheValuesOfTheSpec := by
  unfold Obligations.ResetStateHasTheValuesOfTheSpec
  have hcell : ∀ (b : Bank) (i : Byte), BitVec.ofNat 8 (paletteCell b i.toNat) = i := fun b i => by
    refine BitVec.eq_of_toNat_eq ?_
    have hi := i.isLt
    simp only [paletteCell, BitVec.toNat_ofNat]
    omega
  have hbank : ∀ b : Bank, State.reset.claimOf (.bank b) = .free := by decide
  refine ⟨by decide, rfl, fun b i => ⟨?_, hbank b⟩, rfl, rfl, rfl, by decide, rfl, rfl, rfl, rfl, rfl, rfl, rfl, rfl, rfl, rfl,
    ⟨rfl, rfl⟩, rfl, rfl, rfl, rfl, by decide, by decide, rfl, rfl, rfl⟩
  show Colour.grey (BitVec.ofNat 8 (paletteCell b i.toNat)) = ⟨i, i, i⟩
  rw [hcell]
  rfl

/-- Settles O5: the laws are proved of any device reset where the step's own laws need them. -/
theorem everyLawHoldsAtReset : Obligations.EveryLawHoldsAtReset := by
  unfold Obligations.EveryLawHoldsAtReset
  obtain ⟨hlive, hscan⟩ := State.Drawn.deviceReset true false 0 []
  obtain ⟨hpicture, hpending⟩ := pictureLaw_iff.2 hlive
  obtain ⟨hports, hflight⟩ := interfaces_iff.2 (State.Interfaces.deviceReset true false 0 [])
  obtain ⟨hwindow, hreference⟩ := State.FieldLaws.deviceReset true false 0 [] 0
  have hstaged : ∀ p : Port, (State.reset.staged p).list = [] := by decide
  have hrange : RangeLaw State.reset :=
    ⟨fun p e he => (by rw [hstaged p] at he; cases he), fun b hb => (by cases hb), hscan, hpending⟩
  have hwords : ∀ w ∈ State.reset.compose.pipe.words, w = OutWord.low := by decide
  have houtput : OutputLaw State.reset := by
    refine ⟨fun w hw => ?_, rfl, fun _ => rfl⟩
    rw [hwords w hw]
    decide
  have hcapacity : CapacityLaw State.reset := by
    constructor <;> decide
  exact ⟨hpicture, hrange, houtput, OwnershipLaw.deviceReset true false 0 [], hcapacity, hports, hflight, hwindow, hreference,
    sessionLaw_iff.2 (State.Sessions.deviceReset true false 0 [])⟩

theorem Timing.startField_waiters (t : Timing) (p : Port) :
    t.startField.waiters[p] = t.waiters[p].map (Waiter.counted t.field) := by
  simp [Timing.startField]

theorem Waiter.counted_eq (field : Byte) (w : Waiter) :
    w.counted field =
      if w.due.isSome then w
      else { remaining := w.remaining - 1, due := if w.remaining ≤ 1 then some field else none } := by
  unfold Waiter.counted
  cases w.due <;> rfl

theorem Rect.clip_eq (r : Rect) (width height : Nat) :
    r.clip width height =
      if width ≤ r.x0.val ∨ height ≤ r.y0.val then none
      else some { x0 := r.x0.val, y0 := r.y0.val, x1 := min r.x1.val (width - 1), y1 := min r.y1.val (height - 1) } := rfl

/-- Settles O6: the release is the beginning of a field. -/
theorem deviceResetAndItsRelease : Obligations.DeviceResetAndItsRelease := by
  unfold Obligations.DeviceResetAndItsRelease
  refine ⟨fun addrsel supsel s => rfl, fun s hn => ?_⟩
  intro clip
  refine ⟨{ s with nreset := true }.beginField false, ?_, rfl, fun p => ?_, fun q => ⟨?_, ?_, ?_⟩, rfl⟩
  · show execNresetRelease s = _
    rw [execNresetRelease, if_neg (by rw [hn]; decide)]
  · refine (Timing.startField_waiters s.timing p).trans ?_
    cases hw : s.timing.waiters[p] with
    | none => rfl
    | some w =>
      rw [Option.map_some, Waiter.counted_eq]
      exact apply_ite some _ _ _
  · simp [State.beginField, State.snapshotNow, Live.isHeld]
  · simp [State.beginField, State.snapshotNow, State.planeOwner]
  · simp [State.beginField, Live.latchGuards, GuardRecord.atFieldStart, clip, Rect.clip_eq]

end Sys2Proof.Machine
end

section
/-! The frame commands and the sessions (R98, R103 to R111, R155, R159 to R173). -/

namespace Sys2Proof.Machine

/-! ### The straps -/

theorem Acted.addrsel {p : Port} {s : State} {r : Reply × State} (h : Acted p s r) : r.2.addrsel = s.addrsel := by
  cases h with
  | lapsed k out q cause =>
    obtain ⟨c, x, v, e, w, hf⟩ := s.beginLapse_frame q cause
    rw [hf]
    rfl
  | claimed k out r => cases r <;> rfl
  | released k out r => cases r <;> rfl
  | revoked k out r => cases r <;> rfl
  | _ => rfl

/-- What happens at a port leaves the straps, and so its address, alone. -/
theorem PortPath.writeAddress {p : Port} {s t : State} {n : Nat} (h : PortPath p s n t) :
    t.writeAddress p = s.writeAddress p := by
  have haddrsel : t.addrsel = s.addrsel := by
    refine h.keeps (P := fun u => u.addrsel = s.addrsel) rfl (fun _ _ h => h) (fun u h => ?_) fun _ _ h ha => ha.addrsel.trans h
    rw [State.restartLease_eq]
    exact h
  unfold State.writeAddress State.address
  rw [haddrsel]

/-! ### A whole write transaction -/

/-- A frame that begins with a START, in a transaction that a START ends, goes on from where the end leaves the port. -/
theorem State.sendFrame_of_start {s t : State} {p : Port} (hreset : s.nreset = true) (hstart : s.startCondition p .start = t)
    (hfreed : s.FreedFrom t p) (haddress : t.writeAddress p = s.writeAddress p) (c : Command) (session : Byte)
    (payload : List Byte) : s.sendFrame p c session payload = t.sendFrame p c session payload := by
  obtain ⟨hfree, hn⟩ := hfreed
  have hmatch : s.writeMatch p ⟨.start, s.writeAddress p⟩ (frameBytes c session payload)
      = t.writeMatch p ⟨.start, t.writeAddress p⟩ (frameBytes c session payload) := by
    unfold State.writeMatch
    simp only [hstart, State.startCondition_of_free hfree, haddress]
  unfold State.sendFrame
  rw [if_pos hreset, if_pos (hn.trans hreset), hmatch]

/-- A port that is ready receives the whole frame. -/
theorem State.writeMatch_of_ready {s : State} {p : Port} (h : s.Ready p) (data : List Byte) :
    s.writeMatch p ⟨.start, s.writeAddress p⟩ data = s.setCpi p ((s.cpi p).received (s.cpi p).left data) := by
  obtain ⟨-, hb, hst⟩ := h
  unfold State.writeMatch
  rw [State.startCondition_of_hears hb.hears]
  rcases hst with hst | hst <;> simp [hst, Cpi.left, Cpi.received]

/-- An Executing port lets the whole frame go by (R161). -/
theorem State.sendFrame_of_executing {s : State} {p : Port} (hb : s.BusQuiet p) (hx : (s.cpi p).state = .executing)
    (c : Command) (session : Byte) (payload : List Byte) (hn : s.nreset = true) :
    s.sendFrame p c session payload = s.setCpi p { s.cpi p with bus := .free } := by
  have hmatch : s.writeMatch p ⟨.start, s.writeAddress p⟩ (frameBytes c session payload)
      = s.setCpi p { s.cpi p with bus := .writeRefused } := by
    unfold State.writeMatch
    rw [State.startCondition_of_hears hb.hears]
    simp [hx]
  unfold State.sendFrame
  rw [if_pos hn, hmatch]
  simp [State.endWrite]

/-- A stretched read, or NRESET low, lets no frame through (R168, R172). -/
theorem State.sendFrame_of_stretching {s : State} {p : Port} (h : (s.cpi p).bus = .stretching ∨ s.nreset = false)
    (c : Command) (session : Byte) (payload : List Byte) : s.sendFrame p c session payload = s := by
  unfold State.sendFrame
  split
  · rename_i hn
    have hb : (s.cpi p).bus = .stretching := h.resolve_right (by rw [hn]; decide)
    have hmatch : s.writeMatch p ⟨.start, s.writeAddress p⟩ (frameBytes c session payload) = s := by
      unfold State.writeMatch
      rw [State.startCondition_of_stretching hb]
      simp [hb]
    rw [hmatch]
    simp [State.endWrite, hb]
  · rfl

/-- Settles O7: the cases are the states of the port's transaction in which the START comes. -/
theorem frameCommandIsOneWriteTransaction : Obligations.FrameCommandIsOneWriteTransaction := by
  unfold Obligations.FrameCommandIsOneWriteTransaction
  intro s p c session payload hl
  simp only [exec_row]
  refine ⟨fun hr => ⟨s.setCpi p ((s.cpi p).received (s.cpi p).left (frameBytes c session payload)), ?_, ?_⟩,
    fun hn hb hx => ?_, fun hn hw => ⟨s.endWrite p, ?_, (State.endWrite_freed hw).1, ?_⟩,
    fun hn hread => ⟨s.endRead p 0, ?_, (State.endRead_freed 0 hread).1, ?_⟩, fun h => ?_⟩
  · rw [← State.writeMatch_of_ready hr]
    exact congrArg _ (if_pos hr.1)
  · have hn : (s.setCpi p ((s.cpi p).received (s.cpi p).left (frameBytes c session payload))).nreset = true := hr.1
    have hrow := (congrArg Host.Outcome.next (if_pos hn) :
      execFrameTaken p (s.setCpi p ((s.cpi p).received (s.cpi p).left (frameBytes c session payload))) = _)
    refine Eq.trans hrow (congrArg _ ?_)
    unfold State.sendFrame
    rw [if_pos hr.1, State.writeMatch_of_ready hr]
  · rw [State.sendFrame_of_executing hb hx c session payload hn]
  · exact congrArg _ (if_pos hn)
  · rw [State.sendFrame_of_start hn (State.startCondition_of_write hw .start) (State.endWrite_freed hw)
      (PortPath.endWrite (p := p) .refl).writeAddress]
  · exact congrArg _ (if_pos hn)
  · rw [State.sendFrame_of_start hn (State.startCondition_of_read hread .start) (State.endRead_freed 0 hread)
      (PortPath.endRead (p := p) .refl 0).writeAddress]
  · rw [State.sendFrame_of_stretching h]

/-! ### The checks common to all commands -/

/-- Settles O8: the session checks come before the supervisor-only check, which restarts the lease. -/
theorem commonChecksRefuseInOrder : Obligations.CommonChecksRefuseInOrder := by
  unfold Obligations.CommonChecksRefuseInOrder
  intro s p c session payload hr hl
  refine ⟨fun hattach hstatus hread => ?_, fun hs => ?_, fun hi hsup hc => ?_⟩
  · have hout : ¬ s.InSession p session →
        exec (c.row p session payload) s = .next (s.withAnswer p (s.session p).state.refusal c.code []) := fun h =>
      exec_row_refused hr hl (sessionRefusal_notInSession h hattach hstatus hread)
    refine ⟨fun hs => ?_, fun hs => ?_, fun hs hn => ?_⟩
    · rw [hout fun hi => (by cases hs.symm.trans hi.1), hs]
      rfl
    · rw [hout fun hi => (by cases hs.symm.trans hi.1), hs]
      rfl
    · rw [hout fun hi => hn hi.2, hs]
      rfl
  · exact exec_row_refused (c := .attach) hr hl (if_pos hs)
  · have hattach : c ≠ .attach := by rcases hc with rfl | rfl | rfl | rfl <;> decide
    have honly : c.supervisorOnly = true := by rcases hc with rfl | rfl | rfl | rfl <;> rfl
    rw [exec_row_notSupervisor hr hl (sessionRefusal_inSession hi hattach) ⟨honly, hsup⟩,
      State.withReplyInAnyState_attached hi.1]

/-! ### STATUS -/

/-- STATUS is answered in every session state; of the interface it reads the prior state. -/
theorem exec_status {s : State} {p : Port} {session : Byte} {payload : List Byte} {k : Completion} {out : List Byte}
    (hr : s.Ready p) (hl : payload.length ≤ 61)
    (hact : ∀ c : Cpi, c.prior = (s.cpi p).left → statusAct p payload (s.setCpi p c) = (.done k out, s.setCpi p c)) :
    exec (.status p session payload) s = .next (s.withReplyInAnyState p k 0x01 out) := by
  refine (exec_row .status p session payload s).trans ?_
  rw [State.sendFrame_eq hr .status session hl]
  unfold State.takeCommand
  rw [Command.ofCode_code]
  simp only [sessionRefusal]
  unfold State.runCommand
  rw [if_neg (by simp [Command.supervisorOnly])]
  simp only [ownerAct, hact ((s.cpi p).received (s.cpi p).left (frameBytes .status session payload)) rfl]
  exact congrArg _ (State.done_received s p k 0x01 _ out)

/-- Settles O9: the answer byte by byte, and what its counts count. -/
theorem statusReportsThePort : Obligations.StatusReportsThePort := by
  unfold Obligations.StatusReportsThePort
  intro s p session hr
  refine ⟨?_, fun payload hne hl => ?_, ?_, ?_, rfl, rfl⟩
  · refine exec_status hr (by simp) fun c hc => ?_
    have hprior : c.prior.code = if (s.cpi p).state = .holding then 1 else 0 := by
      rw [hc, Cpi.left]
      split <;> rfl
    have hcpi : (s.setCpi p c).cpi p = c := by simp
    simp only [statusAct, statusBytes, hcpi, hprior] <;> rfl
  · refine exec_status hr hl fun c _ => ?_
    cases payload with
    | nil => exact absurd rfl hne
    | cons => rfl
  · exact List.countP_eq_length_filter
  · rw [State.recordsInUse, queueRecords_eq_sum]

/-! ### ATTACH -/

theorem attachAct_of_attached {s : State} {p : Port} (h : (s.session p).state = .attached) (session : Byte)
    (payload : List Byte) :
    attachAct p session payload s = (.done .attached [(s.session p).number, (s.session p).interval], s) := if_pos h

theorem attachAct_of_lease {s : State} {p : Port} (h : (s.session p).state ≠ .attached) {lease : Byte}
    (hl : ¬ (s.roleOf p = .member ∧ lease = 0)) :
    attachAct p 0 [lease] s =
      (.done .ok [((s.session p).begun (s.roleOf p) lease).number, (s.roleOf p).code, lease],
        (((s.setSession p ((s.session p).begun (s.roleOf p) lease)).setStaged p .empty).setNextBatch p 1).setHistory p []) := by
  simp only [attachAct, if_neg h, if_neg hl, ne_eq, not_true, if_false]
  rfl

theorem attachAct_of_badArg {s : State} {p : Port} (h : (s.session p).state ≠ .attached) {session : Byte}
    {payload : List Byte} (hbad : session ≠ 0 ∨ payload.length ≠ 1 ∨ (s.roleOf p = .member ∧ payload = [0])) :
    attachAct p session payload s = (.done .badArg [], s) := by
  simp only [attachAct, if_neg h]
  split
  · rename_i lease
    split
    · rfl
    · rename_i hsession
      rw [if_pos]
      rcases hbad with hbad | hbad | ⟨hrole, hzero⟩
      · exact absurd hbad hsession
      · exact absurd rfl hbad
      · exact ⟨hrole, List.head_eq_of_cons_eq hzero⟩
  · rfl

theorem State.roleOf_eq_member {s : State} {p : Port} : s.roleOf p = .member ↔ s.strapped ≠ some p := by
  unfold State.roleOf
  split <;> simp_all

theorem exec_attach {s t : State} {p : Port} {session : Byte} {payload : List Byte} {k : Completion} {out : List Byte}
    (hr : s.Ready p) (hl : payload.length ≤ 61) (hs : (s.session p).state ≠ .lapsing)
    (hact : attachAct p session payload s = (.done k out, t)) :
    exec (.attach p session payload) s = .next (t.withReplyInAnyState p k 0x02 out) := by
  have hown : ownerAct .attach p session payload s = (.done k out, t) := hact
  refine (exec_row_run (c := .attach) hr hl (by decide) (if_neg hs) (by simp [Command.supervisorOnly])).trans ?_
  rw [hown]
  rfl

/-- Settles O10: ATTACH by its action, which judges the session byte, the length and the lease in this order. -/
theorem attachBeginsASessionOrIsRefused : Obligations.AttachBeginsASessionOrIsRefused := by
  unfold Obligations.AttachBeginsASessionOrIsRefused
  refine ⟨fun s p lease hr hs hlease x hx => ?_, fun s p session payload hr hl => ⟨fun hs => ?_, fun hs hbad => ?_⟩⟩
  · have hdetached : (s.session p).state ≠ .attached := by rw [hs]; decide
    have hrole : ¬ (s.roleOf p = .member ∧ lease = 0) := fun ⟨hm, hz⟩ => hlease (State.roleOf_eq_member.1 hm) hz
    have hbegun : (s.session p).begun (s.roleOf p) lease = x := by
      rw [hx]
      rfl
    have hsession : ((((s.setSession p x).setStaged p .empty).setNextBatch p 1).setHistory p []).session p = x := by
      simp
    have hexec := exec_attach hr (by simp) (by rw [hs]; decide) (attachAct_of_lease hdetached hrole)
    rw [hbegun, State.withReplyInAnyState_attached (by rw [hsession, hx])] at hexec
    rw [hexec]
    have hcode : x.role = s.roleOf p := by
      rw [hx]
      rfl
    rw [hcode]
    rfl
  · rw [exec_attach hr hl (by rw [hs]; decide) (attachAct_of_attached hs session payload),
      State.withReplyInAnyState_attached hs]
  · have hdetached : (s.session p).state ≠ .attached := by rw [hs]; decide
    rw [← State.roleOf_eq_member] at hbad
    rw [exec_attach hr hl (by rw [hs]; decide) (attachAct_of_badArg hdetached hbad)]
    exact congrArg _ (if_neg hdetached)

/-! ### DETACH and EVICT -/

/-- A session command, answered with the port no longer Attached: the lease does not run again. -/
theorem exec_row_ended {s t : State} {p : Port} {c : Command} {session : Byte} {payload : List Byte} {k : Completion}
    {out : List Byte} (hr : s.Ready p) (hi : s.InSession p session) (hl : payload.length ≤ 61) (hc : c ≠ .status)
    (hc' : c ≠ .attach) (hsup : c.supervisorOnly = true → s.supervisor = some p)
    (hact : ownerAct c p session payload s = (.done k out, t)) (ht : (t.session p).state ≠ .attached) :
    exec (c.row p session payload) s = .next (t.withAnswer p k c.code out) := by
  rw [exec_row_run hr hl hc (sessionRefusal_inSession hi hc') hsup, hact]
  exact congrArg _ (if_neg ht)

theorem State.holdsClaim_iff {s : State} {p : Port} :
    s.holdsClaim p = true ↔ (∃ q : Plane, s.planeOwner q = some p) ∨ ∃ b : Bank, s.bankOwner b = some p := by
  have hmem : ∀ b : Bank, b ∈ allBanks := by decide
  simp [State.holdsClaim, mem_allPlanes, hmem]

/-- DETACH begins a lapse exactly when the port has a claim or a batch. -/
theorem State.detachLapses_iff {s : State} {p : Port} :
    (s.holdsClaim p || 0 < s.portBatches p) = true ↔
      (∃ q : Plane, s.planeOwner q = some p) ∨ (∃ b : Bank, s.bankOwner b = some p) ∨ ∃ b ∈ s.queue, b.port = p := by
  rw [Bool.or_eq_true, State.holdsClaim_iff, decide_eq_true_eq, State.portBatches, List.countP_pos_iff, or_assoc]
  simp only [beq_iff_eq]

theorem detachAct_nil (p : Port) (s : State) :
    detachAct p [] s =
      if (s.holdsClaim p || 0 < s.portBatches p) = true then
        (.done .ok [(s.session p).number, SessionState.lapsing.code], s.beginLapse p .detached)
      else
        (.done .ok [(s.session p).number, SessionState.detached.code],
          (s.setSession p { s.session p with state := .detached, remaining := 0 }).setStaged p .empty) := rfl

/-- Settles O11: by what the port still holds. -/
theorem detachEndsTheSessionOrBeginsALapse : Obligations.DetachEndsTheSessionOrBeginsALapse := by
  unfold Obligations.DetachEndsTheSessionOrBeginsALapse
  intro s p session hr hi
  refine ⟨fun ⟨hplanes, hbanks, hbatches⟩ => ?_, fun hholds => ?_, fun payload hne hl => ?_⟩
  · have hnot : ¬ (s.holdsClaim p || 0 < s.portBatches p) = true := by
      rw [State.detachLapses_iff]
      rintro (⟨q, hq⟩ | ⟨b, hb⟩ | ⟨b, hb, hp⟩)
      · exact hplanes q hq
      · exact hbanks b hb
      · exact hbatches b hb hp
    refine exec_row_ended (c := .detach) hr hi (by simp) (by decide) (by decide) (by simp [Command.supervisorOnly])
      ((detachAct_nil p s).trans (if_neg hnot)) ?_
    simp
  · refine exec_row_ended (c := .detach) hr hi (by simp) (by decide) (by decide) (by simp [Command.supervisorOnly])
      ((detachAct_nil p s).trans (if_pos (State.detachLapses_iff.2 hholds))) ?_
    rw [State.beginLapse_session_state, if_pos rfl]
    decide
  · have hact : ownerAct .detach p session payload s = (.done .badArg [], s) := by
      cases payload with
      | nil => exact absurd rfl hne
      | cons => rfl
    exact exec_row_done (c := .detach) hr hi hl (by decide) (by decide) (by simp [Command.supervisorOnly]) hact hi.1

theorem evictAct_of_port (p q : Port) (s : State) :
    evictAct p [byteOf q.val] s =
      if q = p then (.done .badArg [], s)
      else
        match (s.session q).state with
        | .detached => (.done .notAttached [], s)
        | .lapsing => (.done .alreadyLapsing [byteOf q.val, (s.session q).number, (s.session q).cause.code], s)
        | .attached => (.done .ok [byteOf q.val, (s.session q).number], s.beginLapse q .evicted) := by
  unfold evictAct
  simp only [portOf_byteOf] <;> rfl

theorem evictAct_of_unnamed {payload : List Byte} (h : ∀ r : Port, payload ≠ [byteOf r.val]) (p : Port) (s : State) :
    evictAct p payload s = (.done .badArg [], s) := by
  unfold evictAct
  split
  · rename_i b
    split
    · rfl
    · rename_i q hq
      exact absurd (by rw [portOf_eq_some.1 hq]) (h q)
  · rfl

/-- Settles O12: by the session of the port that is named. -/
theorem evictBeginsALapse : Obligations.EvictBeginsALapse := by
  unfold Obligations.EvictBeginsALapse
  intro s p q session hr hi hsup
  have hdone : ∀ {payload : List Byte} {k : Completion} {out : List Byte} {t : State}, payload.length ≤ 61 →
      evictAct p payload s = (.done k out, t) → (t.session p).state = .attached →
      exec (.evict p session payload) s = .next (t.withReply p k 0x04 out) := fun hl hact ht =>
    exec_row_done (c := .evict) hr hi hl (by decide) (by decide) (fun _ => hsup) hact ht
  refine ⟨fun hq hs => hdone (by simp) ?_ ?_, fun hq hs => hdone (by simp) ?_ hi.1, fun hq hs => hdone (by simp) ?_ hi.1,
    hdone (by simp) ?_ hi.1, fun payload hl hr => hdone hl (evictAct_of_unnamed hr p s) hi.1⟩
  · rw [evictAct_of_port, if_neg hq, hs]
  · rw [(State.beginLapse_other (Ne.symm hq) .evicted).2]
    exact hi.1
  · rw [evictAct_of_port, if_neg hq, hs]
  · rw [evictAct_of_port, if_neg hq, hs]
  · rw [evictAct_of_port, if_pos rfl]

/-! ### The arrival of a completion, and the beginning of a lapse -/

theorem State.complete_frame (s : State) (p : Port) (k : Completion) (out : List Byte) :
    ∃ c x, s.complete p k out = { s with cpis := c, sessions := x } := by
  rw [State.complete_eq]
  split <;> exact ⟨_, _, rfl⟩

theorem State.complete_cpi {s : State} {p : Port} (h : (s.cpi p).state = .executing) (k : Completion) (out : List Byte) :
    (s.complete p k out).cpi p = (s.cpi p).completed k out := by
  rw [State.complete_eq, if_pos h, State.setSession_cpi, State.setCpi_cpi, if_pos rfl]

/-- Settles O14: by the frame of a completion. -/
theorem completionArrivesAtItsPort : Obligations.CompletionArrivesAtItsPort := by
  unfold Obligations.CompletionArrivesAtItsPort
  intro s p k code payload hx hcode t
  have ht : t = (s.setCpi p ((s.cpi p).completed k payload)).setSession p
      (if (s.session p).state = .attached then { s.session p with remaining := (s.session p).interval }
      else s.session p) := (State.complete_eq s p k payload).trans (if_pos hx)
  refine ⟨?_, ?_, fun q hq => ⟨?_, ?_⟩, ?_⟩
  · rw [State.complete_cpi hx, Cpi.completed, hcode]
    rfl
  · rw [ht, State.setSession_session, if_pos rfl]
  · rw [ht, State.setSession_cpi, State.setCpi_cpi, if_neg hq]
  · rw [ht, State.setSession_session, if_neg hq, State.setCpi_session]
  · obtain ⟨c, x, hf⟩ := s.complete_frame p k payload
    show s.complete p k payload = _
    rw [show t = s.complete p k payload from rfl, hf]

/-- What the end of the command in flight does: a waiting WAIT_FIELD or SEAL of the port completes. -/
theorem State.endInFlight_frame (s : State) (p : Port) (waiting : Option Batch) :
    ∃ c x w, s.endInFlight p waiting = { s with cpis := c, sessions := x, timing := { s.timing with waiters := w } }
      ∧ ∀ q, q ≠ p → w[q] = s.timing.waiters[q] := by
  unfold State.endInFlight State.endWaitField State.endSeal
  have hset : ∀ k out, ∃ c x w, (s.setWaiter p none).complete p k out
      = { s with cpis := c, sessions := x, timing := { s.timing with waiters := w } }
        ∧ ∀ q, q ≠ p → w[q] = s.timing.waiters[q] := fun k out => by
    obtain ⟨c, x, h⟩ := (s.setWaiter p none).complete_frame p k out
    refine ⟨c, x, _, h, fun q hq => (s.setWaiter_waiters p none q).trans (if_neg hq)⟩
  have hkept : ∀ k out, ∃ c x w, s.complete p k out
      = { s with cpis := c, sessions := x, timing := { s.timing with waiters := w } }
        ∧ ∀ q, q ≠ p → w[q] = s.timing.waiters[q] := fun k out => by
    obtain ⟨c, x, h⟩ := s.complete_frame p k out
    exact ⟨c, x, s.timing.waiters, h, fun _ _ => rfl⟩
  split
  · split
    · exact hset _ _
    · exact hset _ _
  · split
    · exact hkept _ _
    · exact hkept _ _
  · exact ⟨s.cpis, s.sessions, s.timing.waiters, rfl, fun _ _ => rfl⟩

/-- A completion that reaches a port which is not Attached leaves its session alone. -/
theorem State.endInFlight_session {s : State} {p : Port} (h : (s.session p).state ≠ .attached) (waiting : Option Batch) :
    (s.endInFlight p waiting).session p = s.session p := by
  have hcomplete : ∀ (u : State) k out, u.session p = s.session p → (u.complete p k out).session p = s.session p := by
    intro u k out hu
    rw [State.complete_eq, ← hu]
    split
    · rw [State.setSession_session, if_pos rfl, if_neg (by rw [hu]; exact h)]
    · rfl
  unfold State.endInFlight State.endWaitField State.endSeal
  repeat' split
  · exact hcomplete (s.setWaiter p none) _ _ rfl
  · exact hcomplete (s.setWaiter p none) _ _ rfl
  · exact hcomplete s _ _ rfl
  · exact hcomplete s _ _ rfl
  · rfl

/-- The history entry of a purged batch. -/
def Batch.purgedEntry (field : Byte) (b : Batch) : HistoryEntry := { number := b.number, outcome := .purged, field }

/-- The entries of purged batches stand behind the others, the last 8 being kept (R77, R98). -/
theorem pushPurged_eq (field : Byte) (purged : List Batch) {h : List HistoryEntry} (hl : h.length ≤ 8) :
    pushPurged field h purged =
      (h ++ purged.map (Batch.purgedEntry field)).drop ((h ++ purged.map (Batch.purgedEntry field)).length - 8) := by
  induction purged generalizing h with
  | nil =>
    have hzero : h.length - 8 = 0 := by omega
    simp [pushPurged, hzero]
  | cons b rest ih =>
    rw [pushPurged, ih (pushHistory_length hl _), pushHistory_eq hl]
    simp only [List.map_cons, List.length_append, List.length_drop, List.length_cons, List.length_nil,
      List.length_map]
    rw [← List.drop_append_of_le_length (by simp; omega), List.drop_drop, List.append_assoc, List.singleton_append]
    congr 1
    omega

section
variable {s : State} {p : Port}

theorem State.lapseBegun_session (s : State) (p : Port) (cause : LapseCause) :
    (s.lapseBegun p cause).session p =
      { s.session p with
        state := .lapsing, cause, purged := s.queue.countP (Batch.purgedBy p), inLapseSet := true, remaining := 0 } :=
  (State.setSession_session s p _ p).trans (if_pos rfl)

theorem State.lapseBegun_history (s : State) (p : Port) (cause : LapseCause) (q : Port) :
    (s.lapseBegun p cause).history q =
      if q = p then pushPurged s.timing.field (s.history p) (s.queue.filter (Batch.purgedBy p)) else s.history q :=
  State.setHistory_history s p _ q

theorem State.lapseBegun_staged (s : State) (p : Port) (cause : LapseCause) (q : Port) :
    (s.lapseBegun p cause).staged q = if q = p then .empty else s.staged q :=
  State.setStaged_staged _ p .empty q

end

/-- Settles O13: the beginning of a lapse is `lapseBegun` and then the end of the command in flight. -/
theorem beginningOfALapseIsOneEvent : Obligations.BeginningOfALapseIsOneEvent := by
  unfold Obligations.BeginningOfALapseIsOneEvent
  intro s p cause hlen purged t
  have ht : t = (s.lapseBegun p cause).endInFlight p (s.queue.find? (Batch.waitsFor p)) := s.beginLapse_eq p cause
  obtain ⟨c, x, w, hframe, hwaiters⟩ := (s.lapseBegun p cause).endInFlight_frame p (s.queue.find? (Batch.waitsFor p))
  have hstaging : ∀ q, t.staged q = if q = p then .empty else s.staged q := fun q => by
    rw [ht, hframe]
    exact s.lapseBegun_staged p cause q
  have hhistory : ∀ q, t.history q =
      if q = p then pushPurged s.timing.field (s.history p) purged else s.history q := fun q => by
    rw [ht, hframe]
    exact s.lapseBegun_history p cause q
  have hcpi : (s.lapseBegun p cause).cpi p = s.cpi p := rfl
  have hset : (s.lapseBegun p cause).timing.waiters = s.timing.waiters := rfl
  refine ⟨?_, fun q hq => ⟨(State.beginLapse_other hq cause).2, (State.beginLapse_other hq cause).1, ?_, ?_⟩, ?_, ?_, ?_,
    fun hx => State.Interfaces.beginLapse_cpi hx cause, fun wt hx hw => ?_, fun l b r hx hw hqueue hnone hport hwait => ?_,
    fun q hq => ?_, ?_⟩
  · have hlapsing : ((s.lapseBegun p cause).session p).state ≠ .attached := by
      rw [State.lapseBegun_session]
      simp
    rw [ht, State.endInFlight_session hlapsing, State.lapseBegun_session, List.countP_eq_length_filter]
    rfl
  · rw [hstaging, if_neg hq]
  · rw [hhistory, if_neg hq]
  · rw [hstaging, if_pos rfl]
    rfl
  · rw [ht, hframe]
    rfl
  · rintro kept rfl
    rw [hhistory, if_pos rfl, pushPurged_eq s.timing.field purged hlen]
    rfl
  · have hend : t = (s.lapseBegun p cause).endWaitField p wt := by
      rw [ht]
      unfold State.endInFlight
      rw [hset, hw]
    have hx' : (((s.lapseBegun p cause).setWaiter p none).cpi p).state = .executing := hx
    have hdone : ∀ k out,
        (((s.lapseBegun p cause).setWaiter p none).complete p k out).timing.waiters[p] = none
        ∧ (((s.lapseBegun p cause).setWaiter p none).complete p k out).cpi p = (s.cpi p).completed k out := fun k out => by
      refine ⟨?_, State.complete_cpi hx' k out⟩
      obtain ⟨c, x, hf⟩ := ((s.lapseBegun p cause).setWaiter p none).complete_frame p k out
      rw [hf]
      exact (State.setWaiter_waiters _ p none p).trans (if_pos rfl)
    rw [hend]
    unfold State.endWaitField
    cases hd : wt.due with
    | none => exact hdone _ _
    | some field => exact hdone _ _
  · have hfind : s.queue.find? (Batch.waitsFor p) = some b := by
      rw [hqueue]
      refine find?_split (fun y hy => ?_) (by simp [Batch.waitsFor, hport, hwait])
      by_cases hp : y.port = p
      · simp [Batch.waitsFor, hnone y hy hp]
      · simp [Batch.waitsFor, hp]
    have hend : t = (s.lapseBegun p cause).endSeal p b := by
      rw [ht, hfind]
      unfold State.endInFlight
      rw [hset, hw]
    have hx' : ((s.lapseBegun p cause).cpi p).state = .executing := hx
    rw [hend]
    unfold State.endSeal
    cases hd : b.timedOut with
    | none => exact State.complete_cpi hx' _ _
    | some field => exact State.complete_cpi hx' _ _
  · rw [ht, hframe]
    exact hwaiters q hq
  · rw [ht, hframe]
    rfl

end Sys2Proof.Machine
end

section
/-! CLAIM of a plane or bank (R119, R120), RELEASE (Table 7.3, R124 to R128), WITHDRAW (R96) and WAIT_FIELD (R49). -/

namespace Sys2Proof.Machine

/-! ### CLAIM -/

theorem portByte_some (q : Port) : portByte (some q) = byteOf q.val := rfl

/-- No resource has the kind byte of ANY-PLANE. -/
theorem Resource.bytes_ne_anyPlane (r : Resource) (number : Byte) : r.bytes ≠ [2, number] := by
  cases r <;> simp [Resource.bytes]

/-- The bytes of a resource lead CLAIM to that resource. -/
theorem claimAct_bytes (p : Port) (r : Resource) (s : State) :
    ∃ kind number, r.bytes = [kind, number] ∧ claimAct p r.bytes s = claimNamed p r kind number s := by
  obtain ⟨kind, number, hb, hr⟩ := r.exists_bytes_eq
  have hkind : kind ≠ 2 := by
    rintro rfl
    exact r.bytes_ne_anyPlane number hb
  refine ⟨kind, number, hb, ?_⟩
  simp only [hb, claimAct, if_neg hkind, hr]

theorem claimAct_of_free {s : State} {r : Resource} (h : s.claimOf r = .free) (p : Port) :
    claimAct p r.bytes s = (.done .ok (r.bytes ++ [guardedByte s r]), s.setClaim r (.held p)) := by
  obtain ⟨kind, number, hb, hact⟩ := claimAct_bytes p r s
  rw [hact, hb]
  simp only [claimNamed, h, List.cons_append, List.nil_append]

theorem claimAct_of_held {s : State} {r : Resource} {q : Port} (h : s.claimOf r = .held q) (p : Port) :
    claimAct p r.bytes s = (.done .owned [byteOf q.val, 1], s) := by
  obtain ⟨kind, number, -, hact⟩ := claimAct_bytes p r s
  simp only [hact, claimNamed, h, portByte_some]

theorem claimAct_of_revoking {s : State} {r : Resource} {q : Port} (h : s.claimOf r = .revoking q) (p : Port) :
    claimAct p r.bytes s = (.done .owned [byteOf q.val, 2], s) := by
  obtain ⟨kind, number, -, hact⟩ := claimAct_bytes p r s
  simp only [hact, claimNamed, h, portByte_some]

theorem claimAct_of_unnamed {payload : List Byte} (h : ∀ r : Resource, payload ≠ r.bytes)
    (hany : ∀ n, payload ≠ [2, n]) (p : Port) (s : State) : claimAct p payload s = (.done .badArg [], s) := by
  unfold claimAct
  split
  next kind number =>
    have hkind : kind ≠ 2 := by
      rintro rfl
      exact hany number rfl
    rw [if_neg hkind, resourceOf_eq_none h]
  next => rfl

/-- Whatever a CLAIM takes, no session changes. -/
theorem claimAct_session (p : Port) (payload : List Byte) (s : State) (k : Port) :
    (claimAct p payload s).2.session k = s.session k := by
  unfold claimAct claimNamed
  (repeat' split) <;> simp only [claimAny_session, State.setClaim_session]

theorem exec_claim {s : State} {p : Port} {session : Byte} {payload : List Byte} (hr : s.Ready p)
    (hi : s.InSession p session) (hl : payload.length ≤ 61) :
    exec (.claim p session payload) s = .next (State.afterReply p 0x05 (claimAct p payload s)) :=
  exec_row_afterReply (c := .claim) hr hi hl (by decide) (by decide) rfl (claimAct_session p payload s p)

theorem Resource.length_bytes_le (r : Resource) : r.bytes.length ≤ 61 := by
  rw [r.length_bytes]
  decide

/-- Settles O15: one answer for each claim entry, and BAD_ARG for bytes that name no resource. -/
theorem claimTakesAFreeResource : Obligations.ClaimTakesAFreeResource := by
  unfold Obligations.ClaimTakesAFreeResource
  intro s p session r hr hi
  have hl := r.length_bytes_le
  refine ⟨fun hfree => ?_, fun q hheld => ?_, fun q hrevoking => ?_, fun payload hlen hunnamed hany => ?_,
    fun _ => rfl, fun _ => rfl, rfl, rfl⟩
  · rw [exec_claim hr hi hl, claimAct_of_free hfree]
    cases r <;> rfl
  · rw [exec_claim hr hi hl, claimAct_of_held hheld, State.afterReply_done]
  · rw [exec_claim hr hi hl, claimAct_of_revoking hrevoking, State.afterReply_done]
  · rw [exec_claim hr hi hlen, claimAct_of_unnamed hunnamed hany, State.afterReply_done]

/-! ### RELEASE: the causes for which a resource is in use (R126, R127) -/

/-- The edit touches the plane, or names the bank. -/
def Edit.uses (e : Edit) : Resource → Bool
  | .plane q => e.touched == some (.plane q)
  | .bank b => e.namesBank b

theorem editsUse_eq_any (r : Resource) (edits : List Edit) : editsUse r edits = edits.any fun e => e.uses r := by
  cases r <;> rfl

/-- The cause that stands in the Live State itself: a plane ENABLED, a bank NAMED. -/
def State.liveCause (s : State) (p : Port) : Resource → Option Byte
  | .plane q => if s.live.planes[q].enabled then some 1 else none
  | .bank b => if ∃ q : Plane, s.planeOwner q = some p ∧ s.live.planes[q].palette = some b then some 4 else none

theorem State.inUseCause_eq (s : State) (p : Port) (r : Resource) :
    s.inUseCause p r =
      (s.liveCause p r).or
        (if ∃ e ∈ (s.staged p).list, e.uses r = true then some 2
          else if ∃ b ∈ s.queue, b.port = p ∧ ∃ e ∈ b.edits, e.uses r = true then some 3 else none) := by
  simp only [State.inUseCause, editsUse_eq_any, List.any_eq_true, Bool.and_eq_true, beq_iff_eq]
  cases r with
  | plane q => rfl
  | bank b => simp only [State.liveCause, mem_allPlanes, true_and]

section
variable {s : State} {p : Port} {r : Resource}

theorem State.inUseCause_of_live {cause : Byte} (h : s.liveCause p r = some cause) : s.inUseCause p r = some cause := by
  rw [State.inUseCause_eq, h, Option.some_or]

theorem State.inUseCause_of_staged (hlive : s.liveCause p r = none) (h : ∃ e ∈ (s.staged p).list, e.uses r = true) :
    s.inUseCause p r = some 2 := by
  rw [State.inUseCause_eq, hlive, Option.none_or, if_pos h]

theorem State.inUseCause_of_queued (hlive : s.liveCause p r = none) (hs : ∀ e ∈ (s.staged p).list, e.uses r = false)
    (h : ∃ b ∈ s.queue, b.port = p ∧ ∃ e ∈ b.edits, e.uses r = true) : s.inUseCause p r = some 3 := by
  rw [State.inUseCause_eq, hlive, Option.none_or, if_neg (by simpa using hs), if_pos h]

theorem State.inUseCause_of_unused (hlive : s.liveCause p r = none) (hs : ∀ e ∈ (s.staged p).list, e.uses r = false)
    (hq : ∀ b ∈ s.queue, b.port = p → ∀ e ∈ b.edits, e.uses r = false) : s.inUseCause p r = none := by
  rw [State.inUseCause_eq, hlive, Option.none_or, if_neg (by simpa using hs), if_neg (by simpa using hq)]

end

theorem Edit.uses_plane {e : Edit} {q : Plane} : e.uses (.plane q) = true ↔ e.touched = some (.plane q) := beq_iff_eq

theorem Edit.not_uses_plane {e : Edit} {q : Plane} : e.uses (.plane q) = false ↔ e.touched ≠ some (.plane q) :=
  beq_eq_false_iff_ne

/-! ### RELEASE -/

section
variable {s : State} {p : Port} {r : Resource}

theorem releaseAct_of_free (h : s.claimOf r = .free) : releaseAct p r.bytes s = (.done .notOwner [0xFF], s) := by
  obtain ⟨kind, number, hb, hr⟩ := r.exists_bytes_eq
  simp only [hb, releaseAct, hr, h]
  rfl

theorem releaseAct_of_other {q : Port} (hq : q ≠ p) (h : s.claimOf r = .held q ∨ s.claimOf r = .revoking q) :
    releaseAct p r.bytes s = (.done .notOwner [byteOf q.val], s) := by
  obtain ⟨kind, number, hb, hr⟩ := r.exists_bytes_eq
  rcases h with h | h <;> simp only [hb, releaseAct, hr, h, if_neg hq, portByte_some]

theorem releaseAct_of_revoking (h : s.claimOf r = .revoking p) : releaseAct p r.bytes s = (.done .revoking [], s) := by
  obtain ⟨kind, number, hb, hr⟩ := r.exists_bytes_eq
  simp only [hb, releaseAct, hr, h, if_true]

theorem releaseAct_of_inUse {cause : Byte} (h : s.claimOf r = .held p) (hc : s.inUseCause p r = some cause) :
    releaseAct p r.bytes s = (.done .inUse [cause], s) := by
  obtain ⟨kind, number, hb, hr⟩ := r.exists_bytes_eq
  simp only [hb, releaseAct, hr, h, if_true, hc]

theorem releaseAct_of_unused (h : s.claimOf r = .held p) (hc : s.inUseCause p r = none) :
    releaseAct p r.bytes s = (.done .ok r.bytes, s.freed r) := by
  obtain ⟨kind, number, hb, hr⟩ := r.exists_bytes_eq
  simp only [hb, releaseAct, hr, h, if_true, hc]

theorem releaseAct_of_unnamed {payload : List Byte} (h : ∀ r : Resource, payload ≠ r.bytes) :
    releaseAct p payload s = (.done .badArg [], s) := by
  unfold releaseAct
  split
  · rw [resourceOf_eq_none h]
  · rfl

end

theorem State.freed_session (s : State) (r : Resource) (k : Port) : (s.freed r).session k = s.session k := by
  cases r <;> rfl

/-- Whatever a RELEASE frees, no session changes. -/
theorem releaseAct_session (p : Port) (payload : List Byte) (s : State) (k : Port) :
    (releaseAct p payload s).2.session k = s.session k := by
  unfold releaseAct
  (repeat' split) <;> simp only [State.freed_session]

theorem exec_release {s : State} {p : Port} {session : Byte} {payload : List Byte} (hr : s.Ready p)
    (hi : s.InSession p session) (hl : payload.length ≤ 61) :
    exec (.release p session payload) s = .next (State.afterReply p 0x06 (releaseAct p payload s)) :=
  exec_row_afterReply (c := .release) hr hi hl (by decide) (by decide) rfl (releaseAct_session p payload s p)

/-- The release of a held resource that is in use for no cause, by its bytes. -/
theorem exec_release_unused {s : State} {p : Port} {session : Byte} (hr : s.Ready p) (hi : s.InSession p session)
    {r : Resource} (h : s.claimOf r = .held p) (hlive : s.liveCause p r = none)
    (hs : ∀ e ∈ (s.staged p).list, e.uses r = false)
    (hq : ∀ b ∈ s.queue, b.port = p → ∀ e ∈ b.edits, e.uses r = false) :
    exec (.release p session r.bytes) s = .next ((s.freed r).withReply p .ok 0x06 r.bytes) := by
  rw [exec_release hr hi r.length_bytes_le, releaseAct_of_unused h (State.inUseCause_of_unused hlive hs hq),
    State.afterReply_done]

theorem Edit.namesBank_iff (e : Edit) (b : Bank) :
    e.namesBank b = true ↔
      (∃ first cs, e = .colours b first cs) ∨ ∃ x : PlaneEdit, e = .plane x ∧ x.palette = some (some b) := by
  cases e <;> simp [Edit.namesBank]

/-- Settles O17: the checks of `releaseAct` one by one, and the causes of `inUseCause` in their order. -/
theorem releaseIsJudgedInTheOrderOfItsTable : Obligations.ReleaseIsJudgedInTheOrderOfItsTable := by
  unfold Obligations.ReleaseIsJudgedInTheOrderOfItsTable
  refine ⟨fun s p session hr hi => ⟨fun q h he hs hq => ?_, fun b h he hs hq => ?_⟩,
    fun s p session r hr hi => ⟨fun h => ?_, fun q hne h => ?_, fun h => ?_, fun cause h hc => ?_,
      fun payload hl hun => ?_⟩,
    fun e => ⟨by cases e <;> rfl, e.namesBank_iff⟩⟩
  · exact exec_release_unused (r := .plane q) hr hi h (if_neg (Bool.eq_false_iff.1 he))
      (fun e hm => Edit.not_uses_plane.2 (hs e hm)) fun b hb hp e hm => Edit.not_uses_plane.2 (hq b hb hp e hm)
  · exact exec_release_unused (r := .bank b) hr hi h (if_neg (by simpa using he)) hs hq
  · rw [exec_release hr hi r.length_bytes_le, releaseAct_of_free h, State.afterReply_done]
  · rw [exec_release hr hi r.length_bytes_le, releaseAct_of_other hne h, State.afterReply_done]
  · rw [exec_release hr hi r.length_bytes_le, releaseAct_of_revoking h, State.afterReply_done]
  · have hcause : s.inUseCause p r = some cause := by
      cases r with
      | plane q =>
        rcases hc with ⟨rfl, he⟩ | ⟨he, ⟨rfl, hs⟩ | ⟨rfl, hs, hq⟩⟩
        · exact State.inUseCause_of_live (if_pos he)
        · exact State.inUseCause_of_staged (if_neg (Bool.eq_false_iff.1 he)) (by simpa only [Edit.uses_plane] using hs)
        · exact State.inUseCause_of_queued (if_neg (Bool.eq_false_iff.1 he)) (by simpa only [Edit.not_uses_plane] using hs)
            (by simpa only [Edit.uses_plane] using hq)
      | bank b =>
        rcases hc with ⟨rfl, he⟩ | ⟨he, ⟨rfl, hs⟩ | ⟨rfl, hs, hq⟩⟩
        · exact State.inUseCause_of_live (if_pos he)
        · exact State.inUseCause_of_staged (if_neg (by simpa using he)) hs
        · exact State.inUseCause_of_queued (if_neg (by simpa using he)) hs hq
    rw [exec_release hr hi r.length_bytes_le, releaseAct_of_inUse h hcause, State.afterReply_done]
  · rw [exec_release hr hi hl, releaseAct_of_unnamed hun, State.afterReply_done]

/-! ### WITHDRAW -/

theorem Batch.isNamed_iff {p : Port} {session number : Byte} {b : Batch} :
    b.isNamed p session number = true ↔ b.port = p ∧ b.session = session ∧ b.number = number := by
  simp [Batch.isNamed, and_assoc]

theorem Batch.not_isNamed {p : Port} {session number : Byte} {b : Batch}
    (h : ¬ (b.port = p ∧ b.session = session ∧ b.number = number)) : b.isNamed p session number = false :=
  Bool.eq_false_iff.2 (mt Batch.isNamed_iff.1 h)

theorem withdrawAct_of_ne_zero {n : Byte} (h : n ≠ 0) (p : Port) (s : State) :
    withdrawAct p [n] s = withdrawNumber p n s := if_neg h

theorem withdrawAct_of_length {payload : List Byte} (h : payload.length ≠ 1) (p : Port) (s : State) :
    withdrawAct p payload s = (.done .badArg [], s) := by
  unfold withdrawAct
  split
  next => exact absurd rfl h
  next => rfl

theorem withdrawAct_session (p : Port) (payload : List Byte) (s : State) (k : Port) :
    (withdrawAct p payload s).2.session k = s.session k := by
  unfold withdrawAct withdrawNumber
  (repeat' split) <;> rfl

theorem exec_withdraw {s : State} {p : Port} {session : Byte} {payload : List Byte} (hr : s.Ready p)
    (hi : s.InSession p session) (hl : payload.length ≤ 61) :
    exec (.withdraw p session payload) s = .next (State.afterReply p 0x1A (withdrawAct p payload s)) :=
  exec_row_afterReply (c := .withdraw) hr hi hl (by decide) (by decide) rfl (withdrawAct_session p payload s p)

section
variable {s : State} {p : Port} {n : Byte}

/-- The batch with the number that is nearest the head of the queue is the one that is found. -/
theorem find?_isNamed {l r : List Batch} {b : Batch} (hq : s.queue = l ++ b :: r)
    (hl : ∀ x ∈ l, ¬ (x.port = p ∧ x.session = (s.session p).number ∧ x.number = n))
    (hb : b.port = p ∧ b.session = (s.session p).number ∧ b.number = n) :
    s.queue.find? (Batch.isNamed p (s.session p).number n) = some b :=
  List.find?_eq_some_iff_append.2
    ⟨Batch.isNamed_iff.2 hb, l, r, hq, fun x hx => by rw [Batch.not_isNamed (hl x hx), Bool.not_false]⟩

theorem withdrawNumber_of_queued {b : Batch}
    (hf : s.queue.find? (Batch.isNamed p (s.session p).number n) = some b) (hs : b.state = .queued) :
    withdrawNumber p n s =
      (.done .ok b.acceptance,
        { s with queue := s.queue.eraseP (Batch.isNamed p (s.session p).number n) }.record p
          { number := n, outcome := .withdrawn, field := s.timing.field }) := by
  simp only [withdrawNumber, hf, hs]

theorem withdrawNumber_of_applying {b : Batch}
    (hf : s.queue.find? (Batch.isNamed p (s.session p).number n) = some b) (hs : b.state = .applying) :
    withdrawNumber p n s = (.done .tooLate [n, 5, 0, 0, 0, 0], s) := by
  simp only [withdrawNumber, hf, hs]

theorem withdrawNumber_of_entry {e : HistoryEntry}
    (hf : s.queue.find? (Batch.isNamed p (s.session p).number n) = none)
    (he : ((s.history p).find? fun e => e.number == n) = some e) :
    withdrawNumber p n s = (.done .tooLate (e.report s.freeIndex), { s with freeIndex := s.freeIndex + 2 }) := by
  simp only [withdrawNumber, hf, he]

theorem withdrawNumber_of_unknown (hf : s.queue.find? (Batch.isNamed p (s.session p).number n) = none)
    (he : ((s.history p).find? fun e => e.number == n) = none) :
    withdrawNumber p n s = (.done .noSuchBatch [], s) := by
  simp only [withdrawNumber, hf, he]

end

/-- Settles O23: the queue is searched before the history, and each finding has its answer. -/
theorem withdrawFindsTheBatchOrItsOutcome : Obligations.WithdrawFindsTheBatchOrItsOutcome := by
  unfold Obligations.WithdrawFindsTheBatchOrItsOutcome
  intro s p session n hr hi named
  refine ⟨?_, fun payload hl hne => ?_, fun hn l b r hq hl hb => ?_, fun hn hnone => ?_,
    fun h e hl => pushHistory_eq hl e⟩
  · rw [exec_withdraw hr hi (by simp)]
    rfl
  · rw [exec_withdraw hr hi hl, withdrawAct_of_length hne, State.afterReply_done]
  · have hf := find?_isNamed hq hl hb
    have hrest : s.queue.eraseP (Batch.isNamed p (s.session p).number n) = l ++ r := by
      rw [hq, eraseP_split (fun x hx => Batch.not_isNamed (hl x hx)) (Batch.isNamed_iff.2 hb)]
    have hacc : b.acceptance = n :: be16 b.cost ++ targetBytes b.target := by
      rw [← hb.2.2]
      rfl
    refine ⟨fun hs => ?_, fun hs => ?_⟩
    · rw [exec_withdraw hr hi (by simp), withdrawAct_of_ne_zero hn, withdrawNumber_of_queued hf hs, State.afterReply_done,
        hrest, hacc]
      rfl
    · rw [exec_withdraw hr hi (by simp), withdrawAct_of_ne_zero hn, withdrawNumber_of_applying hf hs,
        State.afterReply_done]
  · have hf : s.queue.find? (Batch.isNamed p (s.session p).number n) = none :=
      List.find?_eq_none.2 fun b hb => mt Batch.isNamed_iff.1 (hnone b hb)
    refine ⟨fun l e r hh hl he => ?_, fun hno => ?_⟩
    · have hfe : ((s.history p).find? fun e => e.number == n) = some e :=
        List.find?_eq_some_iff_append.2 ⟨by simpa using he, l, r, hh, fun x hx => by simpa using hl x hx⟩
      refine ⟨Config.unstatedByte s.freeIndex, Config.unstatedByte (s.freeIndex + 1), s.freeIndex + 2, ?_⟩
      rw [exec_withdraw hr hi (by simp), withdrawAct_of_ne_zero hn, withdrawNumber_of_entry hf hfe,
        State.afterReply_done, ← he, HistoryEntry.report]
      cases e.outcome <;> rfl
    · have hfe : ((s.history p).find? fun e => e.number == n) = none :=
        List.find?_eq_none.2 fun x hx => by simpa using hno x hx
      rw [exec_withdraw hr hi (by simp), withdrawAct_of_ne_zero hn, withdrawNumber_of_unknown hf hfe,
        State.afterReply_done]

/-! ### WAIT_FIELD -/

theorem waitFieldAct_session (p : Port) (payload : List Byte) (s : State) (k : Port) :
    (waitFieldAct p payload s).2.session k = s.session k := by
  unfold waitFieldAct
  (repeat' split) <;> rfl

theorem exec_waitField {s : State} {p : Port} {session : Byte} {payload : List Byte} (hr : s.Ready p)
    (hi : s.InSession p session) (hl : payload.length ≤ 61) :
    exec (.waitField p session payload) s = .next (State.afterReply p 0x20 (waitFieldAct p payload s)) :=
  exec_row_afterReply (c := .waitField) hr hi hl (by decide) (by decide) rfl (waitFieldAct_session p payload s p)

theorem waitFieldAct_of_count {k : Byte} (h : 1 ≤ k.toNat ∧ k.toNat ≤ 16) (p : Port) (s : State) :
    waitFieldAct p [k] s = (.inFlight, s.setWaiter p (some { remaining := k.toNat, due := none })) := if_pos h

theorem waitFieldAct_of_badCount {k : Byte} (h : ¬ (1 ≤ k.toNat ∧ k.toNat ≤ 16)) (p : Port) (s : State) :
    waitFieldAct p [k] s = (.done .badArg [], s) := if_neg h

theorem waitFieldAct_of_length {payload : List Byte} (h : payload.length ≠ 1) (p : Port) (s : State) :
    waitFieldAct p payload s = (.done .badArg [], s) := by
  unfold waitFieldAct
  split
  next => exact absurd rfl h
  next => rfl

/-- Settles O24: a count in range sends the command into flight, any other payload is answered BAD_ARG. -/
theorem waitFieldBecomesAWaiter : Obligations.WaitFieldBecomesAWaiter := by
  unfold Obligations.WaitFieldBecomesAWaiter
  intro s p session k hr hi
  refine ⟨fun h1 h16 => ?_, fun hbad => ?_, fun payload hl hne => ?_⟩
  · rw [exec_waitField hr hi (by simp), waitFieldAct_of_count ⟨h1, h16⟩, State.afterReply_inFlight]
  · rw [exec_waitField hr hi (by simp), waitFieldAct_of_badCount (by omega), State.afterReply_done]
  · rw [exec_waitField hr hi hl, waitFieldAct_of_length hne, State.afterReply_done]

end Sys2Proof.Machine
end

section
/-! The operands of STAGE frames read and written (R56 to R61, R173, R174, Tables 11.1, 11.2 and 11.5): a decoder answers
exactly the bytes that its encoder writes, part by part and then for whole edits. -/

namespace Sys2Proof.Machine

/-! ### Small operands -/

theorem sourceOf_eq_some {b : Byte} {x : Source} : sourceOf b = some x ↔ b = x.code := by
  revert b
  cases x <;> decide

theorem formatOf_eq_some {b : Byte} {x : Format} : formatOf b = some x ↔ b = x.code := by
  revert b
  cases x <;> decide

theorem actionOf_eq_some {b : Byte} {x : GuardAction} : actionOf b = some x ↔ b = x.code := by
  revert b
  cases x <;> decide

theorem paletteByte_some (k : Bank) : paletteByte (some k) = byteOf k.val := rfl

theorem palettePart_eq_some {b : Byte} {x : Option Bank} : palettePart b = some x ↔ b = paletteByte x := by
  unfold palettePart
  cases x with
  | none =>
    rw [show paletteByte none = 0xFF from rfl]
    by_cases h : b = 0xFF <;> simp [h]
  | some k =>
    have hk : byteOf k.val ≠ 0xFF := by
      revert k
      decide
    rw [paletteByte_some, ← bankOf_eq_some]
    by_cases h : b = 0xFF
    · subst h
      simpa [bankOf_eq_some] using hk.symm
    · rw [if_neg h]
      simp

theorem inRange_eq_some_iff {lo hi n m : Nat} : inRange lo hi n = some m ↔ n = m ∧ lo ≤ m ∧ m ≤ hi := by
  constructor
  · intro h
    have hb := inRange_eq_some h
    unfold inRange at h
    split at h <;> cases h
    exact ⟨rfl, hb⟩
  · rintro ⟨rfl, h⟩
    exact if_pos h

theorem nat16_lt (hi lo : Byte) : nat16 hi lo < 65536 := by
  have hhi := hi.isLt
  have hlo := lo.isLt
  unfold nat16
  omega

theorem be16_nat16 (hi lo : Byte) : be16 (nat16 hi lo) = [hi, lo] := by
  have h := be16_ofNat_nat16 hi lo
  rwa [BitVec.toNat_ofNat, Nat.mod_eq_of_lt (nat16_lt hi lo)] at h

theorem nat16_byteOf {n : Nat} (h : n < 65536) : nat16 (byteOf (n / 256)) (byteOf n) = n := by
  simp only [nat16, byteOf, BitVec.toNat_ofNat]
  omega

/-- Two bytes carry a 16-bit value exactly when they are its bytes. -/
theorem nat16_eq_iff {hi lo : Byte} {n : Nat} (h : n < 65536) : nat16 hi lo = n ↔ [hi, lo] = be16 n := by
  constructor
  · rintro rfl
    exact (be16_nat16 hi lo).symm
  · intro hb
    simp only [be16, List.cons.injEq, and_true] at hb
    obtain ⟨rfl, rfl⟩ := hb
    exact nat16_byteOf h

theorem coordOf_eq_some {hi lo : Byte} {x : Fin 2048} : coordOf hi lo = some x ↔ [hi, lo] = be16 x.val := by
  rw [← nat16_eq_iff (by omega)]
  unfold coordOf
  split
  next h => simp [Fin.ext_iff]
  next h => simp; omega

theorem toNat_eq_iff_byteOf {b : Byte} {n : Nat} (h : n < 256) : b.toNat = n ↔ b = byteOf n := by
  rw [← BitVec.toNat_inj, byteOf_toNat h]

theorem length_be16 (n : Nat) : (be16 n).length = 2 := rfl

theorem length_colourBytes (c : Colour) : (Colour.bytes c).length = 3 := rfl

theorem length_rectBytes (r : Rect) : (Rect.bytes r).length = 8 := rfl

theorem word32_toNat (a b c d : Byte) :
    (word32 a b c d).toNat = a.toNat * 16777216 + b.toNat * 65536 + c.toNat * 256 + d.toNat := by
  have ha := a.isLt
  have hb := b.isLt
  have hc := c.isLt
  have hd := d.isLt
  rw [word32, BitVec.toNat_ofNat]
  omega

theorem be32_word32 (a b c d : Byte) : be32 (word32 a b c d) = [a, b, c, d] := by
  have ha := a.isLt
  have hb := b.isLt
  have hc := c.isLt
  have hd := d.isLt
  simp only [be32, word32_toNat, byteOf, List.cons.injEq, and_true, ← BitVec.toNat_inj, BitVec.toNat_ofNat]
  omega

theorem word32_be32 (v : BitVec 32) :
    word32 (byteOf (v.toNat / 16777216)) (byteOf (v.toNat / 65536)) (byteOf (v.toNat / 256)) (byteOf v.toNat) = v := by
  have hv := v.isLt
  apply BitVec.eq_of_toNat_eq
  simp only [word32_toNat, byteOf, BitVec.toNat_ofNat]
  omega

/-! ### A decoder that answers exactly what its encoder writes -/

/-- The decoder answers a value exactly for the bytes that encode it, and only values in range. -/
def Reads {α : Type} (decode : List Byte → Option α) (encode : α → List Byte) (ok : α → Prop) : Prop :=
  ∀ bytes a, decode bytes = some a ↔ bytes = encode a ∧ ok a

theorem reads_oneByte {α : Type} {decode : Byte → Option α} {encode : α → Byte} {ok : α → Prop}
    (h : ∀ b a, decode b = some a ↔ b = encode a ∧ ok a) : Reads (oneByte decode) (fun a => [encode a]) ok := by
  intro bytes a
  match bytes with
  | [] => simp [oneByte]
  | [b] => simp [oneByte, h]
  | b :: c :: rest => simp [oneByte]

theorem reads_flag : Reads (oneByte flagOf) (fun b => [flagByte b]) fun _ => True :=
  reads_oneByte fun _ _ => by rw [flagOf_eq_some, and_true]

theorem reads_source : Reads (oneByte sourceOf) (fun x => [Source.code x]) fun _ => True :=
  reads_oneByte fun _ _ => by rw [sourceOf_eq_some, and_true]

theorem reads_format : Reads (oneByte formatOf) (fun x => [Format.code x]) fun _ => True :=
  reads_oneByte fun _ _ => by rw [formatOf_eq_some, and_true]

theorem reads_palette : Reads (oneByte palettePart) (fun x => [paletteByte x]) fun _ => True :=
  reads_oneByte fun _ _ => by rw [palettePart_eq_some, and_true]

theorem reads_byte {lo hi : Nat} (h : hi < 256) :
    Reads (oneByte fun b => inRange lo hi b.toNat) (fun n => [byteOf n]) fun n => lo ≤ n ∧ n ≤ hi :=
  reads_oneByte fun b n => by
    rw [inRange_eq_some_iff]
    exact and_congr_left fun hn => toNat_eq_iff_byteOf (by omega)

theorem reads_range {lo hi : Nat} (h : hi < 65536) : Reads (rangePart lo hi) be16 fun n => lo ≤ n ∧ n ≤ hi := by
  intro bytes n
  match bytes with
  | [] => simp [rangePart, be16]
  | [_] => simp [rangePart, be16]
  | [a, b] =>
    rw [rangePart, inRange_eq_some_iff]
    exact and_congr_left fun hn => nat16_eq_iff (by omega)
  | _ :: _ :: _ :: _ => simp [rangePart, be16]

theorem reads_colour : Reads colourPart Colour.bytes fun _ => True := by
  intro bytes c
  rw [and_true]
  constructor
  · intro h
    unfold colourPart at h
    split at h <;> cases h
    rfl
  · rintro rfl
    rfl

theorem reads_rect : Reads rectPart Rect.bytes fun _ => True := by
  intro bytes r
  rw [and_true]
  constructor
  · intro h
    unfold rectPart at h
    split at h
    next a b c d e f g k =>
      simp only [Option.bind_eq_bind, Option.bind_eq_some_iff, Option.pure_def, Option.some.injEq] at h
      obtain ⟨x0, h0, y0, h1, x1, h2, y1, h3, rfl⟩ := h
      rw [coordOf_eq_some] at h0 h1 h2 h3
      rw [Rect.bytes, ← h0, ← h1, ← h2, ← h3]
      rfl
    next => cases h
  · rintro rfl
    have hcoord : ∀ x : Fin 2048, coordOf (byteOf (x.val / 256)) (byteOf x.val) = some x := fun x => coordOf_eq_some.2 rfl
    simp only [Rect.bytes, be16, List.cons_append, List.nil_append, rectPart, hcoord, Option.bind_eq_bind,
      Option.bind_some, Option.pure_def]

theorem reads_mode : Reads modePart modeBytes fun _ => True := by
  intro bytes m
  rw [and_true]
  constructor
  · intro h
    unfold modePart at h
    split at h
    next k =>
      split at h <;> cases h
      next hk => rw [hk]; rfl
    next k r g b =>
      split at h <;> cases h
      next hk => rw [hk]; rfl
    next k a =>
      split at h <;> cases h
      next hk =>
        obtain ⟨hk, ha⟩ := hk
        subst hk
        rw [modeBytes, byteOf, BitVec.ofNat_toNat, BitVec.setWidth_eq]
    next => cases h
  · rintro rfl
    cases m with
    | opaqueMode => rfl
    | keyed key => rfl
    | blended alpha =>
      have ha : (byteOf alpha.val).toNat = alpha.val := byteOf_toNat (by omega)
      have h : (2 : Byte) = 2 ∧ (byteOf alpha.val).toNat < 17 := ⟨rfl, by omega⟩
      rw [modeBytes, modePart, dif_pos h]
      simp only [ha]

/-- The part of a mode has the size that its first byte says. -/
theorem length_modeBytes (m : Mode) : (modeBytes m).length = modeSize m.code := by
  cases m <;> rfl

/-! ### One part after the other -/

/-- An absent value is in range. -/
def okPart {α : Type} (ok : α → Prop) (v : Option α) : Prop := ∀ a, v = some a → ok a

theorem okPart_true {α : Type} (v : Option α) : okPart (fun _ => True) v := fun _ _ => trivial

theorem takePart_bytes (present : Bool) (n : Nat) (bytes : List Byte) :
    bytes = (takePart present n bytes).1.getD [] ++ (takePart present n bytes).2 := by
  cases present
  · rfl
  · exact (List.take_append_drop n bytes).symm

theorem takePart_rest (present : Bool) (n : Nat) (bytes : List Byte) :
    (takePart present n bytes).2 = bytes.drop (if present then n else 0) := by
  cases present <;> rfl

section
variable {α : Type} {decode : List Byte → Option α} {encode : α → List Byte} {ok : α → Prop}

theorem partValue_eq_some (h : Reads decode encode ok) {part : Option (List Byte)} {v : Option α} :
    partValue decode part = some v ↔ part = v.map encode ∧ okPart ok v := by
  cases part with
  | none => cases v <;> simp [partValue, okPart]
  | some bytes => cases v <;> simp [partValue, okPart, h bytes]

theorem getD_map_eq_partBytes (v : Option α) : (v.map encode).getD [] = partBytes encode v := by
  cases v <;> rfl

/-- A part that is read stands at the front of the bytes. -/
theorem bytes_of_takePart (h : Reads decode encode ok) {present : Bool} {n : Nat} {bytes : List Byte} {v : Option α}
    (hv : partValue decode (takePart present n bytes).1 = some v) :
    bytes = partBytes encode v ++ (takePart present n bytes).2 ∧ present = v.isSome := by
  have hpresent := takePart_isSome present n bytes
  have hbytes := takePart_bytes present n bytes
  rw [((partValue_eq_some h).1 hv).1] at hpresent hbytes
  rw [getD_map_eq_partBytes] at hbytes
  exact ⟨hbytes, by rw [← hpresent, Option.isSome_map]⟩

/-- A part that stands at the front of the bytes is taken. -/
theorem takePart_partBytes {n : Nat} (hn : ∀ a, (encode a).length = n) (v : Option α) (rest : List Byte) :
    takePart v.isSome n (partBytes encode v ++ rest) = (v.map encode, rest) := by
  cases v with
  | none => rfl
  | some a => simp [takePart, partBytes, ← hn a]

theorem length_partBytes {n : Nat} (hn : ∀ a, (encode a).length = n) (v : Option α) :
    (partBytes encode v).length = if v.isSome then n else 0 := by
  cases v with
  | none => rfl
  | some a => exact hn a

theorem partValue_map (h : Reads decode encode ok) {v : Option α} (hv : okPart ok v) :
    partValue decode (v.map encode) = some v := (partValue_eq_some h).2 ⟨rfl, hv⟩

end

/-- The last part, whose bytes are those that are left. -/
theorem takePart_modeBytes (v : Option Mode) :
    takePart v.isSome 4 (partBytes modeBytes v) = (v.map modeBytes, []) := by
  cases v with
  | none => rfl
  | some m => cases m <;> rfl

/-! ### Masks -/

/-- A mask byte from its bits. -/
def maskOf (b0 b1 b2 b3 b4 b5 b6 b7 : Bool) : Byte :=
  (if b0 then 1 else 0) ||| (if b1 then 2 else 0) ||| (if b2 then 4 else 0) ||| (if b3 then 8 else 0)
    ||| (if b4 then 16 else 0) ||| (if b5 then 32 else 0) ||| (if b6 then 64 else 0) ||| (if b7 then 128 else 0)

theorem eq_maskOf_bits : ∀ m : Byte,
    m = maskOf (m.getLsbD 0) (m.getLsbD 1) (m.getLsbD 2) (m.getLsbD 3) (m.getLsbD 4) (m.getLsbD 5) (m.getLsbD 6)
      (m.getLsbD 7) := by decide

theorem maskOf_bits : ∀ b0 b1 b2 b3 b4 b5 b6 b7 : Bool,
    (maskOf b0 b1 b2 b3 b4 b5 b6 b7).getLsbD 0 = b0 ∧ (maskOf b0 b1 b2 b3 b4 b5 b6 b7).getLsbD 1 = b1
    ∧ (maskOf b0 b1 b2 b3 b4 b5 b6 b7).getLsbD 2 = b2 ∧ (maskOf b0 b1 b2 b3 b4 b5 b6 b7).getLsbD 3 = b3
    ∧ (maskOf b0 b1 b2 b3 b4 b5 b6 b7).getLsbD 4 = b4 ∧ (maskOf b0 b1 b2 b3 b4 b5 b6 b7).getLsbD 5 = b5
    ∧ (maskOf b0 b1 b2 b3 b4 b5 b6 b7).getLsbD 6 = b6 ∧ (maskOf b0 b1 b2 b3 b4 b5 b6 b7).getLsbD 7 = b7 := by decide

theorem maskOf_eq_zero : ∀ b0 b1 b2 b3 b4 b5 b6 b7 : Bool,
    maskOf b0 b1 b2 b3 b4 b5 b6 b7 = 0 ↔ (b0 || b1 || b2 || b3 || b4 || b5 || b6 || b7) = false := by decide

end Sys2Proof.Machine
end

section
/-! Whole edits read and written (R56 to R60, R174): a STAGE payload of the right length decodes to an edit exactly when it
is the payload of that edit. -/

namespace Sys2Proof.Machine

/-! ### PLANE -/

/-- The mask byte of a PLANE edit. -/
def PlaneEdit.maskByte (e : PlaneEdit) : Byte :=
  maskOf e.enabled.isSome e.rect.isSome e.source.isSome e.fill.isSome e.palette.isSome e.mode.isSome false false

/-- The parts before the mode part. -/
def PlaneEdit.fixedBytes (e : PlaneEdit) : List Byte :=
  partBytes (fun b => [flagByte b]) e.enabled ++ (partBytes Rect.bytes e.rect
    ++ (partBytes (fun x => [Source.code x]) e.source ++ (partBytes Colour.bytes e.fill
    ++ partBytes (fun x => [paletteByte x]) e.palette)))

theorem PlaneEdit.payload_eq (e : PlaneEdit) :
    e.payload = byteOf e.plane.val :: e.maskByte :: (e.fixedBytes ++ partBytes modeBytes e.mode) := by
  have hor : ∀ b : Byte, b ||| 0 = b := fun _ => BitVec.or_zero
  simp only [PlaneEdit.payload, PlaneEdit.maskByte, PlaneEdit.fixedBytes, maskOf, maskBit_eq, List.cons_append,
    List.nil_append, List.append_assoc, Bool.false_eq_true, if_false, hor]

/-- The bits of a PLANE edit's mask say which parts are present. -/
theorem PlaneEdit.maskByte_bits (e : PlaneEdit) :
    e.maskByte.getLsbD 0 = e.enabled.isSome ∧ e.maskByte.getLsbD 1 = e.rect.isSome
    ∧ e.maskByte.getLsbD 2 = e.source.isSome ∧ e.maskByte.getLsbD 3 = e.fill.isSome
    ∧ e.maskByte.getLsbD 4 = e.palette.isSome ∧ e.maskByte.getLsbD 5 = e.mode.isSome
    ∧ e.maskByte.getLsbD 6 = false ∧ e.maskByte.getLsbD 7 = false := maskOf_bits _ _ _ _ _ _ _ _

theorem PlaneEdit.maskByte_ne_zero {e : PlaneEdit} (h : e.nonempty) : e.maskByte ≠ 0 := by
  intro h0
  have hnone := (maskOf_eq_zero _ _ _ _ _ _ _ _).1 h0
  simp only [Bool.or_eq_false_iff, Bool.or_false] at hnone
  obtain ⟨⟨⟨⟨⟨h0, h1⟩, h2⟩, h3⟩, h4⟩, h5⟩ := hnone
  simp [PlaneEdit.nonempty, h0, h1, h2, h3, h4, h5] at h

theorem PlaneEdit.length_fixedBytes (e : PlaneEdit) : e.fixedBytes.length = planeFixedSize e.maskByte := by
  obtain ⟨h0, h1, h2, h3, h4, -⟩ := e.maskByte_bits
  have hone : ∀ {α : Type} (f : α → Byte) (a : α), ([f a] : List Byte).length = 1 := fun _ _ => rfl
  simp only [planeFixedSize, h0, h1, h2, h3, h4, PlaneEdit.fixedBytes, List.length_append,
    length_partBytes length_rectBytes, length_partBytes length_colourBytes, length_partBytes (hone flagByte),
    length_partBytes (hone Source.code), length_partBytes (hone paletteByte)]
  omega

theorem length_partBytes_mode (m : Mode) : (partBytes modeBytes (some m)).length = modeSize m.code := length_modeBytes m

/-- The size of a PLANE edit's parts is the one that its mask and its mode byte give. -/
theorem PlaneEdit.planePartsSize_parts (e : PlaneEdit) :
    planePartsSize e.maskByte (e.fixedBytes ++ partBytes modeBytes e.mode)
      = some (e.fixedBytes ++ partBytes modeBytes e.mode).length := by
  obtain ⟨-, -, -, -, -, h5, h6, h7⟩ := e.maskByte_bits
  have hlen := e.length_fixedBytes
  unfold planePartsSize
  rw [h5, h6, h7, ← hlen]
  cases e.mode with
  | none => simp [partBytes]
  | some m => cases m <;> simp [partBytes, modeBytes, modeSize, Colour.bytes]

/-- An edit in range is read back from its parts. -/
theorem planeEditOf_parts {e : PlaneEdit} (h : e.nonempty) :
    planeEditOf e.plane e.maskByte (e.fixedBytes ++ partBytes modeBytes e.mode) = some e := by
  obtain ⟨h0, h1, h2, h3, h4, h5, -, -⟩ := e.maskByte_bits
  have hone : ∀ {α : Type} (f : α → Byte) (a : α), ([f a] : List Byte).length = 1 := fun _ _ => rfl
  unfold planeEditOf
  rw [if_neg (PlaneEdit.maskByte_ne_zero h), h0, h1, h2, h3, h4, h5]
  simp only [PlaneEdit.fixedBytes, List.append_assoc, takePart_partBytes (hone flagByte),
    takePart_partBytes length_rectBytes, takePart_partBytes (hone Source.code), takePart_partBytes length_colourBytes,
    takePart_partBytes (hone paletteByte), takePart_modeBytes, partValue_map reads_flag (okPart_true _),
    partValue_map reads_rect (okPart_true _), partValue_map reads_source (okPart_true _),
    partValue_map reads_colour (okPart_true _), partValue_map reads_palette (okPart_true _),
    partValue_map reads_mode (okPart_true _), Option.bind_eq_bind, Option.bind_some, Option.pure_def]

theorem modeSize_le (m : Byte) : modeSize m ≤ 4 := by
  unfold modeSize
  split
  · decide
  · split <;> decide

/-- Behind the fixed parts stands the mode part, of at most four bytes, or nothing. -/
theorem rest_of_planePartsSize {mask : Byte} {parts : List Byte} (h : planePartsSize mask parts = some parts.length) :
    (takePart (mask.getLsbD 5) 4 (parts.drop (planeFixedSize mask))).2 = [] := by
  obtain ⟨h6, h7⟩ := planePartsSize_bits h
  rw [planePartsSize, h6, h7, Bool.or_self, if_neg Bool.false_ne_true] at h
  rw [takePart_rest, List.drop_drop, List.drop_eq_nil_iff]
  cases h5 : mask.getLsbD 5 with
  | false =>
    rw [h5, if_neg Bool.false_ne_true, Option.some.injEq] at h
    simp only [Bool.false_eq_true, if_false]
    omega
  | true =>
    rw [h5, if_pos rfl, Option.map_eq_some_iff] at h
    obtain ⟨m, -, hm⟩ := h
    have hle := modeSize_le m
    simp only [if_true]
    omega

/-- What is read from bytes of the right size is the edit that they are the parts of. -/
theorem parts_of_planeEditOf {q : Plane} {mask : Byte} {parts : List Byte} {e : PlaneEdit}
    (hsize : planePartsSize mask parts = some parts.length) (h : planeEditOf q mask parts = some e) :
    e.plane = q ∧ mask = e.maskByte ∧ parts = e.fixedBytes ++ partBytes modeBytes e.mode := by
  obtain ⟨h6, h7⟩ := planePartsSize_bits hsize
  have hrest := rest_of_planePartsSize hsize
  unfold planeEditOf at h
  split at h
  · cases h
  · simp only [Option.bind_eq_bind, Option.bind_eq_some_iff, Option.pure_def, Option.some.injEq] at h
    obtain ⟨v0, h0, v1, h1, v2, h2, v3, h3, v4, h4, v5, h5, rfl⟩ := h
    obtain ⟨b0, p0⟩ := bytes_of_takePart reads_flag h0
    obtain ⟨b1, p1⟩ := bytes_of_takePart reads_rect h1
    obtain ⟨b2, p2⟩ := bytes_of_takePart reads_source h2
    obtain ⟨b3, p3⟩ := bytes_of_takePart reads_colour h3
    obtain ⟨b4, p4⟩ := bytes_of_takePart reads_palette h4
    obtain ⟨b5, p5⟩ := bytes_of_takePart reads_mode h5
    refine ⟨rfl, ?_, ?_⟩
    · rw [eq_maskOf_bits mask, p0, p1, p2, p3, p4, p5, h6, h7]
      rfl
    · have hdrop : (takePart (mask.getLsbD 5) 4 (takePart (mask.getLsbD 4) 1 (takePart (mask.getLsbD 3) 3
          (takePart (mask.getLsbD 2) 1 (takePart (mask.getLsbD 1) 8
            (takePart (mask.getLsbD 0) 1 parts).2).2).2).2).2).2 = [] := by
        rw [← hrest]
        simp only [takePart_rest, List.drop_drop, planeFixedSize]
      rw [hdrop, List.append_nil] at b5
      rw [PlaneEdit.fixedBytes, ← b5]
      simp only [List.append_assoc]
      rw [← b4, ← b3, ← b2, ← b1]
      exact b0

/-! ### SCAN -/

/-- The mask byte of a SCAN edit. -/
def ScanEdit.maskByte (e : ScanEdit) : Byte :=
  maskOf e.width.isSome e.height.isSome e.hblank.isSome e.vblank.isSome e.follow.isSome e.lossMargin.isSome
    e.background.isSome e.format.isSome

/-- The parts of a SCAN edit. -/
def ScanEdit.parts (e : ScanEdit) : List Byte :=
  partBytes be16 e.width ++ (partBytes be16 e.height ++ (partBytes be16 e.hblank
    ++ (partBytes (fun n => [byteOf n]) e.vblank ++ (partBytes (fun b => [flagByte b]) e.follow
    ++ (partBytes (fun n => [byteOf n]) e.lossMargin ++ (partBytes Colour.bytes e.background
    ++ (partBytes (fun x => [Format.code x]) e.format ++ [])))))))

theorem ScanEdit.payload_eq (e : ScanEdit) : e.payload = e.maskByte :: e.parts := by
  simp only [ScanEdit.payload, ScanEdit.maskByte, ScanEdit.parts, maskOf, maskBit_eq, List.cons_append,
    List.nil_append, List.append_assoc, List.append_nil]

theorem ScanEdit.maskByte_bits (e : ScanEdit) :
    e.maskByte.getLsbD 0 = e.width.isSome ∧ e.maskByte.getLsbD 1 = e.height.isSome
    ∧ e.maskByte.getLsbD 2 = e.hblank.isSome ∧ e.maskByte.getLsbD 3 = e.vblank.isSome
    ∧ e.maskByte.getLsbD 4 = e.follow.isSome ∧ e.maskByte.getLsbD 5 = e.lossMargin.isSome
    ∧ e.maskByte.getLsbD 6 = e.background.isSome ∧ e.maskByte.getLsbD 7 = e.format.isSome := maskOf_bits _ _ _ _ _ _ _ _

theorem ScanEdit.maskByte_ne_zero {e : ScanEdit} (h : e.nonempty) : e.maskByte ≠ 0 := by
  intro h0
  have hnone := (maskOf_eq_zero _ _ _ _ _ _ _ _).1 h0
  simp only [Bool.or_eq_false_iff] at hnone
  obtain ⟨⟨⟨⟨⟨⟨⟨h0, h1⟩, h2⟩, h3⟩, h4⟩, h5⟩, h6⟩, h7⟩ := hnone
  simp [ScanEdit.nonempty, h0, h1, h2, h3, h4, h5, h6, h7] at h

theorem ScanEdit.length_parts (e : ScanEdit) : e.parts.length = scanPartsSize e.maskByte := by
  obtain ⟨h0, h1, h2, h3, h4, h5, h6, h7⟩ := e.maskByte_bits
  have hone : ∀ {α : Type} (f : α → Byte) (a : α), ([f a] : List Byte).length = 1 := fun _ _ => rfl
  simp only [scanPartsSize, h0, h1, h2, h3, h4, h5, h6, h7, ScanEdit.parts, List.length_append, List.length_nil,
    length_partBytes length_be16, length_partBytes length_colourBytes, length_partBytes (hone flagByte),
    length_partBytes (hone Format.code), length_partBytes (hone byteOf)]
  omega

theorem okPart_of_optionIn {lo hi : Nat} {v : Option Nat} (h : optionIn lo hi v) :
    okPart (fun n => lo ≤ n ∧ n ≤ hi) v := by
  rintro n rfl
  exact h

/-- An edit in range is read back from its parts. -/
theorem scanEditOf_parts {e : ScanEdit} (h : e.nonempty) (hr : e.inRange) : scanEditOf e.maskByte e.parts = some e := by
  obtain ⟨h0, h1, h2, h3, h4, h5, h6, h7⟩ := e.maskByte_bits
  obtain ⟨hw, hh, hb, hv, hm⟩ := hr
  have hone : ∀ {α : Type} (f : α → Byte) (a : α), ([f a] : List Byte).length = 1 := fun _ _ => rfl
  unfold scanEditOf
  rw [if_neg (ScanEdit.maskByte_ne_zero h), h0, h1, h2, h3, h4, h5, h6, h7]
  simp only [ScanEdit.parts, takePart_partBytes length_be16, takePart_partBytes (hone flagByte),
    takePart_partBytes (hone Format.code), takePart_partBytes (hone byteOf), takePart_partBytes length_colourBytes,
    partValue_map (reads_range (by decide)) (okPart_of_optionIn hw),
    partValue_map (reads_range (by decide)) (okPart_of_optionIn hh),
    partValue_map (reads_range (by decide)) (okPart_of_optionIn hb),
    partValue_map (reads_byte (by decide)) (okPart_of_optionIn hv),
    partValue_map (reads_byte (by decide)) (okPart_of_optionIn hm), partValue_map reads_flag (okPart_true _),
    partValue_map reads_colour (okPart_true _), partValue_map reads_format (okPart_true _), Option.bind_eq_bind,
    Option.bind_some, Option.pure_def]

/-- What is read from bytes of the right size is the edit that they are the parts of. -/
theorem parts_of_scanEditOf {mask : Byte} {parts : List Byte} {e : ScanEdit} (hsize : parts.length = scanPartsSize mask)
    (h : scanEditOf mask parts = some e) : mask = e.maskByte ∧ parts = e.parts := by
  unfold scanEditOf at h
  split at h
  · cases h
  · simp only [Option.bind_eq_bind, Option.bind_eq_some_iff, Option.pure_def, Option.some.injEq] at h
    obtain ⟨v0, h0, v1, h1, v2, h2, v3, h3, v4, h4, v5, h5, v6, h6, v7, h7, rfl⟩ := h
    obtain ⟨b0, p0⟩ := bytes_of_takePart (reads_range (by decide)) h0
    obtain ⟨b1, p1⟩ := bytes_of_takePart (reads_range (by decide)) h1
    obtain ⟨b2, p2⟩ := bytes_of_takePart (reads_range (by decide)) h2
    obtain ⟨b3, p3⟩ := bytes_of_takePart (reads_byte (by decide)) h3
    obtain ⟨b4, p4⟩ := bytes_of_takePart reads_flag h4
    obtain ⟨b5, p5⟩ := bytes_of_takePart (reads_byte (by decide)) h5
    obtain ⟨b6, p6⟩ := bytes_of_takePart reads_colour h6
    obtain ⟨b7, p7⟩ := bytes_of_takePart reads_format h7
    refine ⟨?_, ?_⟩
    · rw [eq_maskOf_bits mask, p0, p1, p2, p3, p4, p5, p6, p7]
      rfl
    · have hdrop : (takePart (mask.getLsbD 7) 1 (takePart (mask.getLsbD 6) 3 (takePart (mask.getLsbD 5) 1
          (takePart (mask.getLsbD 4) 1 (takePart (mask.getLsbD 3) 1 (takePart (mask.getLsbD 2) 2
            (takePart (mask.getLsbD 1) 2 (takePart (mask.getLsbD 0) 2 parts).2).2).2).2).2).2).2).2 = [] := by
        simp only [takePart_rest, List.drop_drop, List.drop_eq_nil_iff]
        exact Nat.le_of_eq hsize
      rw [hdrop] at b7
      rw [ScanEdit.parts, ← b7, ← b6, ← b5, ← b4, ← b3, ← b2, ← b1]
      exact b0

/-! ### COLOURS -/

theorem length_coloursBytes (cs : List Colour) : (coloursBytes cs).length = 3 * cs.length := by
  induction cs with
  | nil => rfl
  | cons c rest ih =>
    rw [coloursBytes, List.length_append, length_colourBytes, ih, List.length_cons]
    omega

theorem coloursOf_coloursBytes (cs : List Colour) : coloursOf (coloursBytes cs) = cs := by
  induction cs with
  | nil => rfl
  | cons c rest ih =>
    rw [coloursBytes, Colour.bytes, List.cons_append, List.cons_append, List.cons_append, List.nil_append, coloursOf, ih]

theorem coloursBytes_coloursOf : ∀ (n : Nat) (bytes : List Byte), bytes.length = 3 * n →
    coloursBytes (coloursOf bytes) = bytes
  | 0, bytes, h => by
    obtain rfl : bytes = [] := List.length_eq_zero_iff.1 h
    rfl
  | n + 1, bytes, h => by
    match bytes, h with
    | r :: g :: b :: rest, h =>
      have hrest : rest.length = 3 * n := by
        simp only [List.length_cons] at h
        omega
      rw [coloursOf, coloursBytes, coloursBytes_coloursOf n rest hrest]
      rfl
    | [], h => simp at h
    | [_], h => simp at h; omega
    | [_, _], h => simp at h; omega

theorem coloursEditOf_eq_some {bank : Bank} {first count reserved : Byte} {bytes : List Byte} {e : Edit}
    (hl : bytes.length = 3 * count.toNat) :
    coloursEditOf bank first count reserved bytes = some e ↔
      e.wf ∧ ∃ f cs, e = .colours bank f cs ∧ first = byteOf f ∧ count = byteOf cs.length ∧ reserved = 0
        ∧ bytes = coloursBytes cs := by
  have hfirst := first.isLt
  constructor
  · intro h
    refine ⟨coloursEditOf_wf hl h, ?_⟩
    unfold coloursEditOf at h
    split at h
    next hr =>
      cases h
      obtain ⟨-, -, -, hr⟩ := hr
      exact ⟨first.toNat, coloursOf bytes, rfl, (toNat_eq_iff_byteOf hfirst).1 rfl,
        by rw [coloursOf_length _ _ hl, ← toNat_eq_iff_byteOf count.isLt], hr, (coloursBytes_coloursOf _ _ hl).symm⟩
    next => cases h
  · rintro ⟨hwf, f, cs, rfl, rfl, rfl, rfl, rfl⟩
    obtain ⟨h1, h16, hf, hsum⟩ := hwf
    have hn : (byteOf cs.length).toNat = cs.length := byteOf_toNat (by omega)
    have hfn : (byteOf f).toNat = f := byteOf_toNat hf
    rw [coloursEditOf, hn, hfn, if_pos ⟨h1, h16, hsum, rfl⟩, coloursOf_coloursBytes]

/-! ### ORDER and SIGNATURE -/

theorem orderFormOf_eq_some {p : Plane} {form q : Byte} {f : OrderForm} :
    orderFormOf p form q = some f ↔ f.avoids p ∧ ∃ ignored, [form, q] = orderBytes ignored f := by
  constructor
  · intro h
    refine ⟨orderFormOf_wf h, ?_⟩
    unfold orderFormOf at h
    split at h
    next h0 => cases h; exact ⟨q, by rw [h0]; rfl⟩
    next =>
      split at h
      next h1 => cases h; exact ⟨q, by rw [h1]; rfl⟩
      next =>
        split at h
        next => cases h
        next x hx =>
          have hq : q = byteOf x.val := planeOf_eq_some.1 hx
          split at h
          next => cases h
          next =>
            split at h
            next h2 => cases h; exact ⟨0, by rw [h2, hq]; rfl⟩
            next =>
              split at h
              next h3 => cases h; exact ⟨0, by rw [h3, hq]; rfl⟩
              next => cases h
  · rintro ⟨hwf, ignored, hb⟩
    cases f with
    | top =>
      simp only [orderBytes, List.cons.injEq] at hb
      rw [orderFormOf, if_pos hb.1]
    | bottom =>
      simp only [orderBytes, List.cons.injEq] at hb
      rw [hb.1]
      rfl
    | above x =>
      simp only [orderBytes, List.cons.injEq, and_true] at hb
      obtain ⟨rfl, rfl⟩ := hb
      have hne : x ≠ p := hwf
      simp [orderFormOf, planeOf_byteOf, hne]
    | below x =>
      simp only [orderBytes, List.cons.injEq, and_true] at hb
      obtain ⟨rfl, rfl⟩ := hb
      have hne : x ≠ p := hwf
      simp [orderFormOf, planeOf_byteOf, hne]

theorem expectedOf_eq_some {form v3 v2 v1 v0 : Byte} {x : Option (BitVec 32)} :
    expectedOf form (word32 v3 v2 v1 v0) = some x ↔ ∃ ignored, [form, v3, v2, v1, v0] = expectedBytes ignored x := by
  constructor
  · intro h
    unfold expectedOf at h
    split at h
    next h0 => cases h; exact ⟨word32 v3 v2 v1 v0, by rw [h0, expectedBytes, be32_word32]⟩
    next =>
      split at h
      next h1 => cases h; exact ⟨0, by rw [h1, expectedBytes, be32_word32]⟩
      next => cases h
  · rintro ⟨ignored, hb⟩
    cases x with
    | none =>
      simp only [expectedBytes, List.cons.injEq] at hb
      rw [expectedOf, if_pos hb.1]
    | some v =>
      simp only [expectedBytes, be32, List.cons.injEq, and_true] at hb
      obtain ⟨rfl, rfl, rfl, rfl, rfl⟩ := hb
      rw [word32_be32]
      rfl

theorem signatureEditOf_eq_some {q : Plane} {form v3 v2 v1 v0 limit action : Byte} {e : Edit} :
    signatureEditOf q form (word32 v3 v2 v1 v0) limit action = some e ↔
      e.wf ∧ ∃ x n a ignored, e = .signature q x n a ∧ [form, v3, v2, v1, v0] = expectedBytes ignored x
        ∧ limit = byteOf n ∧ action = a.code := by
  simp only [signatureEditOf, Option.bind_eq_bind, Option.bind_eq_some_iff, Option.pure_def, Option.some.injEq,
    expectedOf_eq_some, inRange_eq_some_iff, actionOf_eq_some]
  constructor
  · rintro ⟨x, ⟨ignored, hx⟩, n, ⟨hl, hn⟩, a, ha, rfl⟩
    exact ⟨hn, x, n, a, ignored, rfl, hx, (toNat_eq_iff_byteOf (by omega)).1 hl, ha⟩
  · rintro ⟨hwf, x, n, a, ignored, rfl, hx, hl, ha⟩
    have hn : 1 ≤ n ∧ n ≤ 15 := hwf
    exact ⟨x, ⟨ignored, hx⟩, n, ⟨(toNat_eq_iff_byteOf (by omega)).2 hl, hn⟩, a, ha, rfl⟩

end Sys2Proof.Machine
end

section
/-! STAGE frames (R56 to R64, Tables 4.1 and 4.2): the checks of the six kinds said once, and what each answers. -/

namespace Sys2Proof.Machine

/-! ### What the six kinds of STAGE frame have in common -/

/-- A STAGE command. -/
def Command.stages (c : Command) : Prop :=
  c ∈ [Command.stagePlane, .stageColours, .stageOrder, .stageSignature, .stageGuard, .stageScan]

/-- The plane or bank that the first byte of a STAGE frame names, where the frame needs a claim. -/
def Command.claimNeeded (payload : List Byte) : Command → Option Resource
  | .stagePlane | .stageOrder | .stageSignature => (payload.head?.bind planeOf).map .plane
  | .stageColours => (payload.head?.bind bankOf).map .bank
  | _ => none

/-- The plane that must be guarded for a SIGNATURE. -/
def Command.guardNeeded (payload : List Byte) : Command → Option Plane
  | .stageSignature => payload.head?.bind planeOf
  | _ => none

/-- The edit that a STAGE payload of the right length carries; none when a field is out of range. -/
def Command.stagedEdit (payload : List Byte) : Command → Option Edit
  | .stagePlane =>
    match payload with
    | b :: mask :: parts => (planeOf b).bind fun q => (planeEditOf q mask parts).map .plane
    | _ => none
  | .stageColours =>
    match payload with
    | b :: first :: count :: reserved :: bytes =>
      (bankOf b).bind fun bank => coloursEditOf bank first count reserved bytes
    | _ => none
  | .stageOrder =>
    match payload with
    | [b, form, x] => (planeOf b).bind fun q => (orderFormOf q form x).map (.order q)
    | _ => none
  | .stageSignature =>
    match payload with
    | [b, form, v3, v2, v1, v0, limit, action] =>
      (planeOf b).bind fun q => signatureEditOf q form (word32 v3 v2 v1 v0) limit action
    | _ => none
  | .stageGuard =>
    match payload with
    | [b, op] => (planeOf b).bind fun q => (flagOf op).map (.guard q)
    | _ => none
  | .stageScan =>
    match payload with
    | mask :: parts => (scanEditOf mask parts).map .scan
    | _ => none
  | _ => none

/-- The checks of Table 4.2 in their order. -/
def stageJudged (c : Command) (p : Port) (payload : List Byte) (s : State) : Reply × State :=
  if c.lengthFits payload = false then stageRefused p .badArg s
  else if (c.claimNeeded payload).any (fun r => !s.holds p r) then stageRefused p .notOwner s
  else if (c.guardNeeded payload).any (fun q => !s.live.isGuarded q) then stageRefused p .notGuarded s
  else stageEdit p payload (c.stagedEdit payload) s

theorem stagePlaneAct_eq (p : Port) (payload : List Byte) (s : State) :
    stagePlaneAct p payload s = stageJudged .stagePlane p payload s := by
  match payload with
  | [] => rfl
  | [_] => rfl
  | b :: mask :: parts =>
    cases hq : planeOf b with
    | none => simp [stagePlaneAct, stageJudged, Command.claimNeeded, Command.guardNeeded, Command.stagedEdit, hq, stageEdit]
    | some q =>
      simp [stagePlaneAct, stageJudged, Command.claimNeeded, Command.guardNeeded, Command.stagedEdit,
        Command.lengthFits, hq]

theorem stageColoursAct_eq (p : Port) (payload : List Byte) (s : State) :
    stageColoursAct p payload s = stageJudged .stageColours p payload s := by
  match payload with
  | [] => rfl
  | [_] => rfl
  | [_, _] => rfl
  | [_, _, _] => rfl
  | b :: first :: count :: reserved :: bytes =>
    cases hq : bankOf b with
    | none => simp [stageColoursAct, stageJudged, Command.claimNeeded, Command.guardNeeded, Command.stagedEdit, hq, stageEdit]
    | some q =>
      simp [stageColoursAct, stageJudged, Command.claimNeeded, Command.guardNeeded, Command.stagedEdit,
        Command.lengthFits, hq]

theorem stageOrderAct_eq (p : Port) (payload : List Byte) (s : State) :
    stageOrderAct p payload s = stageJudged .stageOrder p payload s := by
  match payload with
  | [] => rfl
  | [_] => rfl
  | [_, _] => rfl
  | _ :: _ :: _ :: _ :: _ => simp [stageOrderAct, stageJudged, Command.lengthFits]
  | [b, form, x] =>
    cases hq : planeOf b with
    | none => simp [stageOrderAct, stageJudged, Command.claimNeeded, Command.guardNeeded, Command.stagedEdit, hq, stageEdit]
    | some q =>
      simp [stageOrderAct, stageJudged, Command.claimNeeded, Command.guardNeeded, Command.stagedEdit,
        Command.lengthFits, hq]

/-- A payload that is not of eight bytes is no SIGNATURE frame's. -/
theorem stageSignatureAct_of_length {payload : List Byte} (h : payload.length ≠ 8) (p : Port) (s : State) :
    stageSignatureAct p payload s = stageRefused p .badArg s := by
  unfold stageSignatureAct
  split
  next => exact absurd rfl h
  next => rfl

theorem stageSignatureAct_eq (p : Port) (payload : List Byte) (s : State) :
    stageSignatureAct p payload s = stageJudged .stageSignature p payload s := by
  by_cases hl : payload.length = 8
  · obtain ⟨b, form, v3, v2, v1, v0, limit, action, rfl⟩ :
        ∃ b form v3 v2 v1 v0 limit action, payload = [b, form, v3, v2, v1, v0, limit, action] := by
      match payload, hl with
      | [b, form, v3, v2, v1, v0, limit, action], _ => exact ⟨b, form, v3, v2, v1, v0, limit, action, rfl⟩
    cases hq : planeOf b with
    | none =>
      simp [stageSignatureAct, stageJudged, Command.claimNeeded, Command.guardNeeded, Command.stagedEdit, hq, stageEdit]
    | some q =>
      simp [stageSignatureAct, stageJudged, Command.claimNeeded, Command.guardNeeded, Command.stagedEdit,
        Command.lengthFits, hq]
  · rw [stageSignatureAct_of_length hl, stageJudged, if_pos]
    simpa [Command.lengthFits] using hl

theorem stageGuardAct_eq (p : Port) (payload : List Byte) (s : State) :
    stageGuardAct p payload s = stageJudged .stageGuard p payload s := by
  match payload with
  | [] => rfl
  | [_] => rfl
  | _ :: _ :: _ :: _ => simp [stageGuardAct, stageJudged, Command.lengthFits]
  | [b, op] =>
    cases hq : planeOf b with
    | none => simp [stageGuardAct, stageJudged, Command.claimNeeded, Command.guardNeeded, Command.stagedEdit, hq, stageEdit]
    | some q =>
      simp [stageGuardAct, stageJudged, Command.claimNeeded, Command.guardNeeded, Command.stagedEdit,
        Command.lengthFits, hq]

theorem stageScanAct_eq (p : Port) (payload : List Byte) (s : State) :
    stageScanAct p payload s = stageJudged .stageScan p payload s := by
  match payload with
  | [] => rfl
  | mask :: parts =>
    simp [stageScanAct, stageJudged, Command.claimNeeded, Command.guardNeeded, Command.stagedEdit, Command.lengthFits]

/-- The six actions are the one judgement. -/
theorem ownerAct_stages {c : Command} (hc : c.stages) (p : Port) (session : Byte) (payload : List Byte) (s : State) :
    ownerAct c p session payload s = stageJudged c p payload s := by
  simp only [Command.stages, List.mem_cons, List.not_mem_nil, or_false] at hc
  rcases hc with rfl | rfl | rfl | rfl | rfl | rfl
  · exact stagePlaneAct_eq p payload s
  · exact stageColoursAct_eq p payload s
  · exact stageOrderAct_eq p payload s
  · exact stageSignatureAct_eq p payload s
  · exact stageGuardAct_eq p payload s
  · exact stageScanAct_eq p payload s

/-! ### Checks 3 to 5 -/

section
variable {s : State} {p : Port} {payload : List Byte} {e : Edit}

theorem stageEdit_none : stageEdit p payload none s = stageRefused p .badArg s := rfl

theorem stageEdit_poolFull (h : 96 ≤ s.poolUsed) : stageEdit p payload (some e) s = stageRefused p .poolFull s := by
  have hfree : s.poolFree = 0 := Nat.sub_eq_zero_of_le h
  simp only [stageEdit, hfree, if_true]

theorem stageEdit_portCap (h : s.poolUsed < 96) (hc : 48 ≤ s.recordsInUse p) :
    stageEdit p payload (some e) s = stageRefused p .portCap s := by
  have hfree : s.poolFree ≠ 0 := Nat.sub_ne_zero_of_lt h
  have hcap : Config.portCap ≤ s.recordsInUse p := hc
  simp only [stageEdit, if_neg hfree, if_pos hcap]

theorem stageEdit_accepted (h : s.poolUsed < 96) (hc : s.recordsInUse p < 48) :
    stageEdit p payload (some e) s =
      (.done .ok ((s.staged p).add e payload).report, s.setStaged p ((s.staged p).add e payload)) := by
  have hfree : s.poolFree ≠ 0 := Nat.sub_ne_zero_of_lt h
  have hcap : ¬ Config.portCap ≤ s.recordsInUse p := Nat.not_le.2 hc
  simp only [stageEdit, if_neg hfree, if_neg hcap]

end

/-! ### The payload of an edit -/

theorem length_partBytes_le {α : Type} {encode : α → List Byte} {n : Nat} (h : ∀ a, (encode a).length ≤ n)
    (v : Option α) : (partBytes encode v).length ≤ n := by
  cases v with
  | none => exact Nat.zero_le n
  | some a => exact h a

theorem length_modeBytes_le (m : Mode) : (modeBytes m).length ≤ 4 := by
  rw [length_modeBytes]
  exact modeSize_le _

theorem planeFixedSize_le (mask : Byte) : planeFixedSize mask ≤ 14 := by
  unfold planeFixedSize
  (repeat' split) <;> omega

theorem scanPartsSize_le (mask : Byte) : scanPartsSize mask ≤ 13 := by
  unfold scanPartsSize
  (repeat' split) <;> omega

theorem length_orderBytes (ignored : Byte) (f : OrderForm) : (orderBytes ignored f).length = 2 := by
  cases f <;> rfl

theorem length_expectedBytes (ignored : BitVec 32) (x : Option (BitVec 32)) : (expectedBytes ignored x).length = 5 := by
  cases x <;> rfl

/-- An edit in range fits a frame. -/
theorem Edit.length_payload_le {e : Edit} (h : e.wf) (ignored : BitVec 32) : (e.payload ignored).length ≤ 61 := by
  cases e with
  | plane e =>
    have hmode := length_partBytes_le length_modeBytes_le e.mode
    have hfixed := planeFixedSize_le e.maskByte
    simp only [Edit.payload, PlaneEdit.payload_eq, List.length_cons, List.length_append, e.length_fixedBytes]
    omega
  | colours bank first cs =>
    obtain ⟨-, h16, -⟩ := h
    simp only [Edit.payload, List.length_append, length_coloursBytes, List.length_cons, List.length_nil]
    omega
  | order q form =>
    simp only [Edit.payload, List.length_cons, length_orderBytes]
    decide
  | signature q x n a =>
    simp only [Edit.payload, List.length_cons, List.length_append, length_expectedBytes, List.length_nil]
    decide
  | guard q set => exact Nat.le_add_left 2 59
  | scan e =>
    have hparts := scanPartsSize_le e.maskByte
    simp only [Edit.payload, ScanEdit.payload_eq, List.length_cons, e.length_parts]
    omega

theorem Edit.command_stages (e : Edit) : e.command.stages := by
  cases e <;> simp [Edit.command, Command.stages]

theorem Edit.lengthFits_payload {e : Edit} (h : e.wf) (ignored : BitVec 32) :
    e.command.lengthFits (e.payload ignored) = true := by
  cases e with
  | plane e => simp [Edit.command, Edit.payload, PlaneEdit.payload_eq, Command.lengthFits, e.planePartsSize_parts]
  | colours bank first cs =>
    obtain ⟨-, h16, -⟩ := h
    have hn : (byteOf cs.length).toNat = cs.length := byteOf_toNat (by omega)
    simp [Edit.command, Edit.payload, Command.lengthFits, length_coloursBytes, hn]
  | order q form => simp [Edit.command, Edit.payload, Command.lengthFits, length_orderBytes]
  | signature q x n a => simp [Edit.command, Edit.payload, Command.lengthFits, length_expectedBytes]
  | guard q set => rfl
  | scan e => simp [Edit.command, Edit.payload, ScanEdit.payload_eq, Command.lengthFits, e.length_parts]

theorem Edit.claimNeeded_payload (e : Edit) (ignored : BitVec 32) :
    e.command.claimNeeded (e.payload ignored) = e.claimed := by
  cases e with
  | plane e => simp [Edit.command, Edit.payload, PlaneEdit.payload_eq, Command.claimNeeded, Edit.claimed, planeOf_byteOf]
  | colours bank first cs => simp [Edit.command, Edit.payload, Command.claimNeeded, Edit.claimed, bankOf_byteOf]
  | order q form => simp [Edit.command, Edit.payload, Command.claimNeeded, Edit.claimed, planeOf_byteOf]
  | signature q x n a => simp [Edit.command, Edit.payload, Command.claimNeeded, Edit.claimed, planeOf_byteOf]
  | guard q set => rfl
  | scan e => rfl

theorem Edit.guardNeeded_payload (e : Edit) (ignored : BitVec 32) :
    e.command.guardNeeded (e.payload ignored) = e.guardNeeded := by
  cases e with
  | signature q x n a => simp [Edit.command, Edit.payload, Command.guardNeeded, Edit.guardNeeded, planeOf_byteOf]
  | _ => rfl

/-- Any byte stands in the lowest byte of some ignored word. -/
theorem exists_ignored (b : Byte) : ∃ ignored : BitVec 32, ignored.setWidth 8 = b := by
  refine ⟨b.setWidth 32, ?_⟩
  rw [BitVec.setWidth_setWidth_of_le b (by decide), BitVec.setWidth_eq]

/-- A payload carries an edit exactly when it is the payload of that edit, which is in range and of the frame's kind. -/
theorem Command.stagedEdit_eq_some {c : Command} {payload : List Byte} {e : Edit} (hc : c.stages)
    (hl : c.lengthFits payload = true) :
    c.stagedEdit payload = some e ↔ e.wf ∧ e.command = c ∧ ∃ ignored, payload = e.payload ignored := by
  constructor
  · intro h
    simp only [Command.stages, List.mem_cons, List.not_mem_nil, or_false] at hc
    rcases hc with rfl | rfl | rfl | rfl | rfl | rfl
    · unfold Command.stagedEdit at h
      simp only at h
      split at h
      next b mask parts =>
        simp only [Option.bind_eq_some_iff, Option.map_eq_some_iff, planeOf_eq_some] at h
        obtain ⟨q, rfl, x, hx, rfl⟩ := h
        have hsize : planePartsSize mask parts = some parts.length := by simpa [Command.lengthFits] using hl
        obtain ⟨h6, h7⟩ := planePartsSize_bits hsize
        obtain ⟨rfl, hmask, hparts⟩ := parts_of_planeEditOf hsize hx
        refine ⟨planeEditOf_wf h6 h7 hx, rfl, 0, ?_⟩
        rw [Edit.payload, PlaneEdit.payload_eq, ← hmask, ← hparts]
      next => cases h
    · unfold Command.stagedEdit at h
      simp only at h
      split at h
      next b first count reserved bytes =>
        simp only [Option.bind_eq_some_iff, bankOf_eq_some] at h
        obtain ⟨bank, rfl, hx⟩ := h
        have hsize : bytes.length = 3 * count.toNat := by simpa [Command.lengthFits] using hl
        obtain ⟨hwf, f, cs, rfl, rfl, rfl, rfl, rfl⟩ := (coloursEditOf_eq_some hsize).1 hx
        exact ⟨hwf, rfl, 0, rfl⟩
      next => cases h
    · unfold Command.stagedEdit at h
      simp only at h
      split at h
      next b form x =>
        simp only [Option.bind_eq_some_iff, Option.map_eq_some_iff, planeOf_eq_some, orderFormOf_eq_some] at h
        obtain ⟨q, rfl, f, ⟨hwf, byte, hb⟩, rfl⟩ := h
        obtain ⟨ignored, hi⟩ := exists_ignored byte
        exact ⟨hwf, rfl, ignored, by rw [Edit.payload, hi, hb]⟩
      next => cases h
    · unfold Command.stagedEdit at h
      simp only at h
      split at h
      next b form v3 v2 v1 v0 limit action =>
        simp only [Option.bind_eq_some_iff, planeOf_eq_some, signatureEditOf_eq_some] at h
        obtain ⟨q, rfl, hwf, x, n, a, ignored, rfl, hb, rfl, rfl⟩ := h
        exact ⟨hwf, rfl, ignored, by rw [Edit.payload, ← hb]; rfl⟩
      next => cases h
    · unfold Command.stagedEdit at h
      simp only at h
      split at h
      next b op =>
        simp only [Option.bind_eq_some_iff, Option.map_eq_some_iff, planeOf_eq_some, flagOf_eq_some] at h
        obtain ⟨q, rfl, set, rfl, rfl⟩ := h
        exact ⟨trivial, rfl, 0, rfl⟩
      next => cases h
    · unfold Command.stagedEdit at h
      simp only at h
      split at h
      next mask parts =>
        simp only [Option.map_eq_some_iff] at h
        obtain ⟨x, hx, rfl⟩ := h
        have hsize : parts.length = scanPartsSize mask := by simpa [Command.lengthFits] using hl
        obtain ⟨hmask, hparts⟩ := parts_of_scanEditOf hsize hx
        refine ⟨scanEditOf_wf hx, rfl, 0, ?_⟩
        rw [Edit.payload, ScanEdit.payload_eq, ← hmask, ← hparts]
      next => cases h
  · rintro ⟨hwf, rfl, ignored, rfl⟩
    cases e with
    | plane e =>
      simp [Edit.command, Edit.payload, PlaneEdit.payload_eq, Command.stagedEdit, planeOf_byteOf, planeEditOf_parts hwf]
    | colours bank first cs =>
      have hsize : (coloursBytes cs).length = 3 * (byteOf cs.length).toNat := by
        simpa [Command.lengthFits, Edit.command, Edit.payload] using hl
      have hx := (coloursEditOf_eq_some (bank := bank) hsize).2 ⟨hwf, first, cs, rfl, rfl, rfl, rfl, rfl⟩
      simpa [Edit.command, Edit.payload, Command.stagedEdit, bankOf_byteOf] using hx
    | order q form =>
      have hx : ∀ a b, [a, b] = orderBytes (ignored.setWidth 8) form → orderFormOf q a b = some form := fun a b hb =>
        orderFormOf_eq_some.2 ⟨hwf, _, hb⟩
      obtain ⟨a, b, hb⟩ : ∃ a b, orderBytes (ignored.setWidth 8) form = [a, b] :=
        ⟨_, _, List.eq_getElem_of_length_eq_two _ (length_orderBytes (ignored.setWidth 8) form)⟩
      simp [Edit.command, Edit.payload, Command.stagedEdit, hb, planeOf_byteOf, hx a b hb.symm]
    | signature q x n a =>
      obtain ⟨form, v3, v2, v1, v0, hb⟩ : ∃ form v3 v2 v1 v0, expectedBytes ignored x = [form, v3, v2, v1, v0] := by
        cases x <;> exact ⟨_, _, _, _, _, rfl⟩
      have hx := signatureEditOf_eq_some.2 ⟨hwf, x, n, a, ignored, rfl, hb.symm, rfl, rfl⟩
      simp [Edit.command, Edit.payload, Command.stagedEdit, hb, planeOf_byteOf, hx]
    | guard q set => simp [Edit.command, Edit.payload, Command.stagedEdit, planeOf_byteOf, flagOf_flagByte]
    | scan e =>
      obtain ⟨hne, hr⟩ := hwf
      simp [Edit.command, Edit.payload, ScanEdit.payload_eq, Command.stagedEdit, scanEditOf_parts hne hr]

/-! ### The rows -/

theorem stageJudged_session (c : Command) (p : Port) (payload : List Byte) (s : State) (k : Port) :
    (stageJudged c p payload s).2.session k = s.session k := by
  unfold stageJudged stageEdit stageRefused
  (repeat' split) <;> rfl

theorem exec_stage {s : State} {p : Port} {c : Command} {session : Byte} {payload : List Byte} (hc : c.stages)
    (hr : s.Ready p) (hi : s.InSession p session) (hl : payload.length ≤ 61)
    (hsup : c = .stageGuard ∨ c = .stageScan → s.supervisor = some p) {k : Completion} {out : List Byte} {t : State}
    (hact : stageJudged c p payload s = (.done k out, t)) :
    exec (c.row p session payload) s = .next (t.withReply p k c.code out) := by
  have hne : c ≠ .status ∧ c ≠ .attach ∧ (c.supervisorOnly = true → c = .stageGuard ∨ c = .stageScan) := by
    simp only [Command.stages, List.mem_cons, List.not_mem_nil, or_false] at hc
    rcases hc with rfl | rfl | rfl | rfl | rfl | rfl <;> decide
  obtain ⟨hstatus, hattach, hsupervisor⟩ := hne
  have hkeeps : t.session p = s.session p := by
    rw [← stageJudged_session c p payload s p, hact]
  refine exec_row_done hr hi hl hstatus hattach (fun h => hsup (hsupervisor h)) ((ownerAct_stages hc ..).trans hact) ?_
  rw [hkeeps]
  exact hi.1

section
variable {s : State} {p : Port} {e : Edit}

/-- An edit in range that may be staged passes the checks before those of the pool. -/
theorem stageJudged_payload (hwf : e.wf) (hmay : s.MayStage p e) (ignored : BitVec 32) :
    stageJudged e.command p (e.payload ignored) s = stageEdit p (e.payload ignored) (some e) s := by
  obtain ⟨hclaim, -, hguard⟩ := hmay
  have hl := Edit.lengthFits_payload hwf ignored
  have he := (Command.stagedEdit_eq_some e.command_stages hl).2 ⟨hwf, rfl, ignored, rfl⟩
  have hheld : e.claimed.any (fun r => !s.holds p r) = false := by
    cases hc : e.claimed with
    | none => rfl
    | some r => simp [State.holds, hclaim r hc]
  have hguarded : e.guardNeeded.any (fun q => !s.live.isGuarded q) = false := by
    cases hq : e.guardNeeded with
    | none => rfl
    | some q => simp [hguard q hq]
  rw [stageJudged, hl, Edit.claimNeeded_payload, Edit.guardNeeded_payload, hheld, hguarded, he]
  simp

theorem mayStage_supervisor (hmay : s.MayStage p e) :
    e.command = .stageGuard ∨ e.command = .stageScan → s.supervisor = some p := by
  obtain ⟨-, hsup, -⟩ := hmay
  intro h
  apply hsup
  cases e <;> simp_all [Edit.command, Edit.claimed]

end

/-! ### The refusals -/

theorem Command.claimNeeded_iff {c : Command} (hc : c.stages) {payload : List Byte} {r : Resource} :
    (match r with
      | .plane q => (c = .stagePlane ∨ c = .stageOrder ∨ c = .stageSignature) ∧ payload.head? = some (byteOf q.val)
      | .bank b => c = .stageColours ∧ payload.head? = some (byteOf b.val)) ↔ c.claimNeeded payload = some r := by
  simp only [Command.stages, List.mem_cons, List.not_mem_nil, or_false] at hc
  rcases hc with rfl | rfl | rfl | rfl | rfl | rfl <;> cases r <;>
    simp [Command.claimNeeded, Option.bind_eq_some_iff, planeOf_eq_some, bankOf_eq_some]

theorem Command.guardNeeded_eq_some {c : Command} {payload : List Byte} {q : Plane}
    (h : c.guardNeeded payload = some q) : c = .stageSignature ∧ c.claimNeeded payload = some (.plane q) := by
  cases c with
  | stageSignature => exact ⟨rfl, congrArg (Option.map Resource.plane) h⟩
  | _ => cases h

section
variable {c : Command} {s : State} {p : Port} {payload : List Byte}

theorem stageJudged_notOwner (hl : c.lengthFits payload = true) {r : Resource} (hn : c.claimNeeded payload = some r)
    (h : s.claimOf r ≠ .held p) : stageJudged c p payload s = stageRefused p .notOwner s := by
  simp [stageJudged, hl, hn, State.holds, h]

theorem stageJudged_notGuarded {q : Plane} (hl : Command.stageSignature.lengthFits payload = true)
    (hn : Command.stageSignature.claimNeeded payload = some (.plane q)) (hheld : s.claimOf (.plane q) = .held p)
    (hg : s.live.isGuarded q = false) : stageJudged .stageSignature p payload s = stageRefused p .notGuarded s := by
  have hq : Command.stageSignature.guardNeeded payload = some q := by
    simpa only [Command.claimNeeded, Command.guardNeeded, Option.map_eq_some_iff, Resource.plane.injEq,
      exists_eq_right] using hn
  simp [stageJudged, hl, hn, State.holds, hheld, hq, hg]

/-- A frame that passes the checks of the claim and the guard, and carries no edit in range. -/
theorem stageJudged_noEdit (hc : c.stages) (hheld : ∀ r, c.claimNeeded payload = some r → s.claimOf r = .held p)
    (hg : ∀ q, c.guardNeeded payload = some q → s.live.isGuarded q = true)
    (hne : ∀ (e : Edit) (ignored : BitVec 32), e.wf → e.command = c → payload ≠ e.payload ignored) :
    stageJudged c p payload s = stageRefused p .badArg s := by
  cases hl : c.lengthFits payload with
  | false => exact if_pos hl
  | true =>
    have he : c.stagedEdit payload = none := Option.eq_none_iff_forall_ne_some.2 fun e h => by
      obtain ⟨hwf, hcmd, ignored, hp⟩ := (Command.stagedEdit_eq_some hc hl).1 h
      exact hne e ignored hwf hcmd hp
    have hclaim : (c.claimNeeded payload).any (fun r => !s.holds p r) = false := by
      cases hn : c.claimNeeded payload with
      | none => rfl
      | some r => simp [State.holds, hheld r hn]
    have hguard : (c.guardNeeded payload).any (fun q => !s.live.isGuarded q) = false := by
      cases hq : c.guardNeeded payload with
      | none => rfl
      | some q => simp [hg q hq]
    rw [stageJudged, hl, hclaim, hguard, he]
    rfl

end

theorem be32_eq_be16 (v : BitVec 32) : be32 v = be16 (v.toNat / 65536) ++ be16 v.toNat := by
  simp [be32, be16, Nat.div_div_eq_div_mul]

theorem expectedBytes_eq (ignored : BitVec 32) (x : Option (BitVec 32)) :
    expectedBytes ignored x
      = flagByte x.isSome :: (be16 ((x.getD ignored).toNat / 65536) ++ be16 (x.getD ignored).toNat) := by
  cases x with
  | none => exact congrArg _ (be32_eq_be16 ignored)
  | some v => exact congrArg _ (be32_eq_be16 v)

/-- Settles O19: the decoded edit is the one that was written, and the tables' bytes are its payload. -/
theorem stageAppendsTheEditItsFrameCarries : Obligations.StageAppendsTheEditItsFrameCarries := by
  unfold Obligations.StageAppendsTheEditItsFrameCarries
  intro two flag rgb fold cost code
  have hcost : cost = Edit.cost := funext fun e => by cases e <;> rfl
  have hflag : flagByte = flag := funext fun b => by cases b <;> rfl
  have hcode : ∀ e : Edit, e.command.code = code e := fun e => by cases e <;> rfl
  have hsum : ∀ list : List Edit, editsCost list = (list.map cost).sum := fun list => by
    rw [hcost, editsCost_eq_sum]
  have hreport : ∀ (list : List Edit) (check : BitVec 16),
      stageReport list check = byteOf list.length :: two (list.map cost).sum ++ two check.toNat := fun list check => by
    rw [← hsum]
    rfl
  refine ⟨fun s p session ignored e hr hi hwf hmay hpool hcap => ?_, fun ignored e => ?_, hcode, hsum,
    foldChecks_eq_foldl, hreport⟩
  · intro payload row list check
    have hrow : row = e.command.row p session payload := by cases e <;> rfl
    have hact := (stageJudged_payload hwf hmay ignored).trans (stageEdit_accepted hpool hcap)
    have hexec := exec_stage (session := session) e.command_stages hr hi (Edit.length_payload_le hwf ignored)
      (mayStage_supervisor hmay) hact
    have hout : ((s.staged p).add e (e.payload ignored)).report = stageReport list check := by
      rw [show check = foldChecks (s.staged p).check payload from (foldChecks_eq_foldl _ _).symm]
      rfl
    rw [hrow, hexec, hout, hreport, hcode]
    exact congrArg (fun c : BitVec 16 => Host.Outcome.next ((s.setStaged p { list, check := c }).withReply p .ok (code e)
      (byteOf list.length :: two (list.map cost).sum ++ two check.toNat))) (foldChecks_eq_foldl _ _)
  · cases e with
    | plane x =>
      have hmode : modeBytes = fun m =>
          match m with
          | .opaqueMode => [0]
          | .keyed key => 1 :: rgb key
          | .blended alpha => [2, byteOf alpha.val] := funext fun m => by cases m <;> rfl
      have hsource : Source.code = fun c => match c with | .fill => 0 | .streamA => 1 | .streamB => 2 :=
        funext fun c => by cases c <;> rfl
      have hpalette : paletteByte = fun o => match o with | none => 0xFF | some b => byteOf b.val :=
        funext fun o => by cases o <;> rfl
      simp only [Edit.payload, PlaneEdit.payload, maskBit_eq, planeMask_eq_sum, partBytes_eq_elim, hflag, hmode, hsource,
        hpalette]
      rfl
    | colours bank first cs =>
      rw [Edit.payload, coloursBytes_eq_flatMap]
      rfl
    | order q form => cases form <;> rfl
    | signature q expected limit action =>
      rw [Edit.payload, expectedBytes_eq]
      cases expected <;> cases action <;> rfl
    | guard q set => rfl
    | scan x =>
      have hformat : Format.code = fun f => match f with | .direct => 0 | .indexed => 1 :=
        funext fun f => by cases f <;> rfl
      simp only [Edit.payload, ScanEdit.payload, maskBit_eq, scanMask_eq_sum, partBytes_eq_elim, hflag, hformat]
      rfl

/-- Settles O20: each refusal is one of the checks of `stageJudged`, and answers the list as it stands. -/
theorem refusedStageKeepsTheList : Obligations.RefusedStageKeepsTheList := by
  unfold Obligations.RefusedStageKeepsTheList
  intro s p session hr hi report
  constructor
  · intro c payload hl hc hsup named refused
    have hnamed : ∀ r, named r ↔ c.claimNeeded payload = some r := fun r => Command.claimNeeded_iff hc
    have hrefused : ∀ k, stageJudged c p payload s = stageRefused p k s → refused k := fun k h =>
      exec_stage hc hr hi hl hsup h
    refine ⟨fun hlen => ?_, fun r hlen hn hheld => ?_, fun q hcs hlen hn hheld hg => ?_, fun hheld hg hne => ?_⟩
    · exact hrefused _ (if_pos hlen)
    · exact hrefused _ (stageJudged_notOwner hlen ((hnamed r).1 hn) hheld)
    · subst hcs
      exact hrefused _ (stageJudged_notGuarded hlen ((hnamed (.plane q)).1 hn) hheld hg)
    · refine hrefused _ (stageJudged_noEdit hc (fun r hn => hheld r ((hnamed r).2 hn)) (fun q hq => ?_) hne)
      obtain ⟨hcs, hn⟩ := Command.guardNeeded_eq_some hq
      exact hg hcs q ((hnamed (.plane q)).2 hn)
  · intro e ignored hwf hmay
    refine ⟨fun hpool => ?_, fun hpool hcap => ?_⟩
    · exact exec_stage e.command_stages hr hi (Edit.length_payload_le hwf ignored) (mayStage_supervisor hmay)
        ((stageJudged_payload hwf hmay ignored).trans (stageEdit_poolFull hpool))
    · exact exec_stage e.command_stages hr hi (Edit.length_payload_le hwf ignored) (mayStage_supervisor hmay)
        ((stageJudged_payload hwf hmay ignored).trans (stageEdit_portCap hpool hcap))

end Sys2Proof.Machine
end

section
/-! The queries (R21, R22, R31, R51, R149): what each reads of the live state, laid out by Tables 11.2 and 11.3. -/

namespace Sys2Proof.Machine

/-! ### A command that only reads -/

/-- A session command, open to every role, whose action answers and changes nothing. -/
theorem exec_reads {s : State} {p : Port} {c : Command} {session : Byte} {payload : List Byte} {k : Completion}
    {out : List Byte} (hr : s.Ready p) (hi : s.InSession p session) (hl : payload.length ≤ 61) (hstatus : c ≠ .status)
    (hattach : c ≠ .attach) (hsup : c.supervisorOnly = false)
    (hact : ownerAct c p session payload s = (.done k out, s)) :
    exec (c.row p session payload) s = .next (s.withReply p k c.code out) :=
  exec_row_done hr hi hl hstatus hattach (by simp [hsup]) hact hi.1

/-! ### The actions -/

theorem queryPlaneAct_plane (q : Plane) (s : State) :
    queryPlaneAct [byteOf q.val] s = (.done .ok (planeBytes q s), s) := by
  simp only [queryPlaneAct, planeOf_byteOf]

theorem planeOf_eq_none {b : Byte} (h : 16 ≤ b.toNat) : planeOf b = none := dif_neg (Nat.not_lt.2 h)

theorem bankOf_eq_none {b : Byte} (h : 4 ≤ b.toNat) : bankOf b = none := dif_neg (Nat.not_lt.2 h)

theorem queryPlaneAct_unnamed {b : Byte} (h : 16 ≤ b.toNat) (s : State) : queryPlaneAct [b] s = (.done .badArg [], s) := by
  simp only [queryPlaneAct, planeOf_eq_none h]

theorem queryPlaneAct_of_length {payload : List Byte} (h : payload.length ≠ 1) (s : State) :
    queryPlaneAct payload s = (.done .badArg [], s) := by
  unfold queryPlaneAct
  split
  next => exact absurd rfl h
  next => rfl

theorem queryColoursAct_entries (b : Bank) {first count : Byte} (h1 : 1 ≤ count.toNat) (h16 : count.toNat ≤ 16)
    (hsum : first.toNat + count.toNat ≤ 256) (s : State) :
    queryColoursAct [byteOf b.val, first, count] s =
      (.done .ok ([byteOf b.val, first, count, portByte (s.bankOwner b)]
        ++ entriesBytes s.live.palette b first.toNat count.toNat), s) := by
  simp only [queryColoursAct, bankOf_byteOf]
  rw [if_neg (by omega)]

theorem queryColoursAct_badArg {b first count : Byte}
    (h : 4 ≤ b.toNat ∨ count.toNat = 0 ∨ 16 < count.toNat ∨ 256 < first.toNat + count.toNat) (s : State) :
    queryColoursAct [b, first, count] s = (.done .badArg [], s) := by
  unfold queryColoursAct
  simp only
  split
  next => rfl
  next bank hbank =>
    rcases h with h | h
    · rw [bankOf_eq_none h] at hbank
      cases hbank
    · rw [if_pos h]

theorem queryColoursAct_of_length {payload : List Byte} (h : payload.length ≠ 3) (s : State) :
    queryColoursAct payload s = (.done .badArg [], s) := by
  unfold queryColoursAct
  split
  next => exact absurd rfl h
  next => rfl

/-- The entries of a bank, one after the other. -/
theorem entriesBytes_eq (store : List (Nat × Colour)) (bank : Bank) (first n : Nat) :
    entriesBytes store bank first n =
      (List.range n).flatMap fun i => Colour.bytes (bankEntry store bank (first + i)) := by
  induction n generalizing first with
  | zero => rfl
  | succ n ih =>
    rw [entriesBytes, ih, List.range_succ_eq_map, List.flatMap_cons, List.flatMap_map]
    simp only [Nat.add_zero, Nat.succ_eq_add_one, Nat.add_assoc, Nat.add_comm 1]

/-- The entries of the guarded planes, one after the other. -/
theorem guardsBytes_eq (s : State) (l : List Plane) :
    guardsBytes s l = l.flatMap fun q => (s.live.guards[q]).elim [] (guardBytes s q) := by
  induction l with
  | nil => rfl
  | cons q rest ih =>
    rw [guardsBytes, List.flatMap_cons, ih]
    cases s.live.guards[q] <;> rfl

/-! ### The flags of a guard entry -/

/-- The flags do not overlap, so that their sum is the byte. -/
theorem guardFlags_eq_sum (enabled : Bool) (r : GuardRecord) :
    guardFlags enabled r =
      (if enabled then 1 else 0) + (if r.expected.isSome then 2 else 0) + (if r.held then 4 else 0)
        + (if r.lastSignature.isSome then 8 else 0) + (if r.action = .substitute then 16 else 0)
        + (match r.lastResult with | .notCompared => 0 | .isMatch => 32 | .mismatch => 64) := by
  have hsum : ∀ (e x h l : Bool) (a : Prop) [Decidable a] (code : Byte), code = 0 ∨ code = 1 ∨ code = 2 →
      flagByte e ||| (if x then (2 : Byte) else 0) ||| (if h then (4 : Byte) else 0) ||| (if l then (8 : Byte) else 0)
        ||| (if a then (16 : Byte) else 0) ||| (code <<< 5)
      = (if e then (1 : Byte) else 0) + (if x then (2 : Byte) else 0) + (if h then (4 : Byte) else 0)
        + (if l then (8 : Byte) else 0) + (if a then (16 : Byte) else 0) + (code <<< 5) := by
    intro e x h l a _ code hcode
    rcases hcode with rfl | rfl | rfl <;> by_cases ha : a <;> simp only [ha] <;> revert e x h l <;> decide
  unfold guardFlags
  rw [hsum]
  · cases r.lastResult <;> rfl
  · cases r.lastResult
    · exact .inl rfl
    · exact .inr (.inl rfl)
    · exact .inr (.inr rfl)

/-! ### The rows -/

section
variable {s : State} {p : Port} {session : Byte}

theorem exec_queryPlane (hr : s.Ready p) (hi : s.InSession p session) {payload : List Byte} (hl : payload.length ≤ 61)
    {k : Completion} {out : List Byte} (h : queryPlaneAct payload s = (.done k out, s)) :
    exec (.queryPlane p session payload) s = .next (s.withReply p k 0x30 out) :=
  exec_reads (c := .queryPlane) hr hi hl (by decide) (by decide) rfl h

theorem exec_queryOrder (hr : s.Ready p) (hi : s.InSession p session) {payload : List Byte} (hl : payload.length ≤ 61)
    {k : Completion} {out : List Byte} (h : queryOrderAct payload s = (.done k out, s)) :
    exec (.queryOrder p session payload) s = .next (s.withReply p k 0x31 out) :=
  exec_reads (c := .queryOrder) hr hi hl (by decide) (by decide) rfl h

theorem exec_queryColours (hr : s.Ready p) (hi : s.InSession p session) {payload : List Byte} (hl : payload.length ≤ 61)
    {k : Completion} {out : List Byte} (h : queryColoursAct payload s = (.done k out, s)) :
    exec (.queryColours p session payload) s = .next (s.withReply p k 0x32 out) :=
  exec_reads (c := .queryColours) hr hi hl (by decide) (by decide) rfl h

theorem exec_queryScan (hr : s.Ready p) (hi : s.InSession p session) {payload : List Byte} (hl : payload.length ≤ 61)
    {k : Completion} {out : List Byte} (h : queryScanAct payload s = (.done k out, s)) :
    exec (.queryScan p session payload) s = .next (s.withReply p k 0x33 out) :=
  exec_reads (c := .queryScan) hr hi hl (by decide) (by decide) rfl h

theorem exec_queryGuard (hr : s.Ready p) (hi : s.InSession p session) {payload : List Byte} (hl : payload.length ≤ 61)
    {k : Completion} {out : List Byte} (h : queryGuardAct payload s = (.done k out, s)) :
    exec (.queryGuard p session payload) s = .next (s.withReply p k 0x34 out) :=
  exec_reads (c := .queryGuard) hr hi hl (by decide) (by decide) rfl h

end

/-! ### The bytes of the answers -/

/-- The mode byte and the parameter. -/
theorem mode_bytes (m : Mode) :
    m.code :: m.parameterBytes =
      match m with
      | .opaqueMode => [0, 0, 0, 0]
      | .keyed key => [1, key.r, key.g, key.b]
      | .blended alpha => [2, byteOf alpha.val, 0, 0] := by
  cases m <;> rfl

/-- Settles O26: the action of each query, and the bytes of its answer by the tables. -/
theorem queriesReadTheLiveState : Obligations.QueriesReadTheLiveState := by
  unfold Obligations.QueriesReadTheLiveState
  constructor
  · intro s p session hr hi portOrNone flag two scanBlock
    have hport : portByte = portOrNone := funext fun o => by cases o <;> rfl
    have hflag : flagByte = flag := funext fun b => by cases b <;> rfl
    have hscan : ScanRecord.bytes = scanBlock := funext fun r => by
      rw [ScanRecord.bytes, hflag]
      obtain ⟨_, _, _, _, _, _, _, format⟩ := r
      cases format <;> rfl
    have hbe32 : ∀ v : BitVec 32, be32 v = two (v.toNat / 65536) ++ two v.toNat := be32_eq_be16
    refine ⟨fun q => ?_, ?_, fun b first count h1 h16 hsum => ?_, ?_, ?_⟩
    · rw [exec_queryPlane hr hi (by simp) (queryPlaneAct_plane q s)]
      refine congrArg (fun out => Host.Outcome.next (s.withReply p .ok 0x30 out)) ?_
      rw [planeBytes, hport, hflag]
      cases s.live.planes[q].source <;> cases s.live.planes[q].palette <;> cases s.live.planes[q].mode <;> rfl
    · exact exec_queryOrder hr hi (by simp) rfl
    · rw [exec_queryColours hr hi (by simp) (queryColoursAct_entries b h1 h16 hsum s), entriesBytes_eq, hport]
      rfl
    · rw [exec_queryScan hr hi (by simp) rfl, hscan, hflag]
      cases s.timing.refState <;> rfl
    · rw [exec_queryGuard hr hi (by simp) rfl, guardsBytes_eq]
      refine congrArg (fun out => Host.Outcome.next (s.withReply p .ok 0x34 (byteOf s.live.guardCount :: out))) ?_
      refine congrArg s.live.order.flatMap (funext fun q => ?_)
      cases s.live.guards[q] with
      | none => rfl
      | some r =>
        rw [Option.elim_some, guardBytes, hport, guardFlags_eq_sum, hbe32, hbe32]
        simp only [List.append_assoc] <;> rfl
  · intro s p session hr hi
    refine ⟨fun n hn => ?_, fun b first count h => ?_, fun payload hl => ⟨fun h => ?_, fun h => ?_⟩,
      fun payload hne hl => ?_⟩
    · exact exec_queryPlane hr hi (by simp) (queryPlaneAct_unnamed hn s)
    · exact exec_queryColours hr hi (by simp) (queryColoursAct_badArg h s)
    · exact exec_queryPlane hr hi hl (queryPlaneAct_of_length h s)
    · exact exec_queryColours hr hi hl (queryColoursAct_of_length h s)
    · cases payload with
      | nil => exact absurd rfl hne
      | cons b rest => exact ⟨exec_queryOrder hr hi hl rfl, exec_queryScan hr hi hl rfl, exec_queryGuard hr hi hl rfl⟩

end Sys2Proof.Machine
end

section
/-! The bus events of a port (R159 to R170): address bytes, the end of a write and of a read, the stretch limit, bus hold,
and ATTN. -/

namespace Sys2Proof.Machine

/-! ### The rows while NRESET is high, and while it is low -/

section
variable {s : State} {p : Port}

theorem exec_writeAddressMatch (hn : s.nreset = true) (address : AddressByte) (data : List Byte) :
    exec (.writeAddressMatch p address data) s = .next (s.writeMatch p address data) := congrArg _ (if_pos hn)

theorem exec_writeAddressMatch_low (hn : s.nreset = false) (address : AddressByte) (data : List Byte) :
    exec (.writeAddressMatch p address data) s = .next s := congrArg _ (if_neg (Bool.eq_false_iff.1 hn))

theorem exec_readAddressMatch (hn : s.nreset = true) (address : AddressByte) :
    exec (.readAddressMatch p address) s = .next (s.readMatch p address) := congrArg _ (if_pos hn)

theorem exec_readAddressMatch_low (hn : s.nreset = false) (address : AddressByte) :
    exec (.readAddressMatch p address) s = .next s := congrArg _ (if_neg (Bool.eq_false_iff.1 hn))

theorem exec_frameTaken (hn : s.nreset = true) : exec (.frameTaken p) s = .next (s.endWrite p) := congrArg _ (if_pos hn)

theorem exec_frameTaken_low (hn : s.nreset = false) : exec (.frameTaken p) s = .next s :=
  congrArg _ (if_neg (Bool.eq_false_iff.1 hn))

theorem exec_readEnd (hn : s.nreset = true) (n : Nat) : exec (.readEnd p n) s = .next (s.endRead p n) :=
  congrArg _ (if_pos hn)

theorem exec_readEnd_low (hn : s.nreset = false) (n : Nat) : exec (.readEnd p n) s = .next s :=
  congrArg _ (if_neg (Bool.eq_false_iff.1 hn))

theorem exec_busHoldAbandon (hn : s.nreset = true) : exec (.busHoldAbandon p) s = .next (s.abandon p) :=
  congrArg _ (if_pos hn)

theorem exec_busHoldAbandon_low (hn : s.nreset = false) : exec (.busHoldAbandon p) s = .next s :=
  congrArg _ (if_neg (Bool.eq_false_iff.1 hn))

/-! ### The end of a write (R162) and of a read (R166) -/

theorem State.endWrite_of_refused (h : (s.cpi p).bus = .writeRefused) :
    s.endWrite p = s.setCpi p { s.cpi p with bus := .free } := by
  unfold State.endWrite
  rw [h]

theorem State.endWrite_of_other (h : (s.cpi p).bus ≠ .writing) (h' : (s.cpi p).bus ≠ .writeRefused) : s.endWrite p = s := by
  unfold State.endWrite
  split
  next hb => exact absurd hb h
  next hb => exact absurd hb h'
  all_goals rfl

theorem State.endWrite_of_empty (h : (s.cpi p).bus = .writing) (hb : (s.cpi p).buffer = []) (hl : (s.cpi p).long = false) :
    s.endWrite p = s.setCpi p (s.cpi p).backToPrior := by
  unfold State.endWrite
  rw [h]
  simp only [hb, hl, List.isEmpty_nil, Bool.not_false, Bool.and_self, if_true]

/-- A write that brought a byte, or too many, is judged. -/
theorem State.endWrite_of_bytes (h : (s.cpi p).bus = .writing) (hb : (s.cpi p).buffer ≠ [] ∨ (s.cpi p).long = true) :
    s.endWrite p = s.judgeFrame p := by
  have hbytes : ((s.cpi p).buffer.isEmpty && !(s.cpi p).long) = false := by
    rcases hb with hb | hb
    · simp [hb]
    · simp [hb]
  unfold State.endWrite
  rw [h]
  simp only [hbytes, Bool.false_eq_true, if_false]

theorem State.endRead_of_consumed (h : (s.cpi p).bus = .readHeld) {n : Nat} (hf : (s.cpi p).fullyRead n = true) :
    s.endRead p n = s.setCpi p (s.cpi p).consumed := by
  unfold State.endRead
  rw [h]
  exact if_pos hf

theorem State.endRead_of_unread (h : (s.cpi p).bus = .readHeld) {n : Nat} (hf : (s.cpi p).fullyRead n = false) :
    s.endRead p n = s.setCpi p { s.cpi p with bus := .free } := by
  unfold State.endRead
  rw [h]
  exact if_neg (Bool.eq_false_iff.1 hf)

/-- A read of NONE or PENDING just ends. -/
theorem State.endRead_of_unstored (h : (s.cpi p).bus = .readNone ∨ ∃ code, (s.cpi p).bus = .readPending code) (n : Nat) :
    s.endRead p n = s.setCpi p { s.cpi p with bus := .free } := by
  unfold State.endRead
  rcases h with h | ⟨code, h⟩ <;> rw [h]

theorem State.endRead_of_quiet (h : s.BusQuiet p) (n : Nat) : s.endRead p n = s := by
  unfold State.endRead
  rcases h with h | h <;> rw [h]

theorem State.endWrite_of_quiet (h : s.BusQuiet p) : s.endWrite p = s := by
  unfold State.endWrite
  rcases h with h | h <;> rw [h]

end

theorem Response.length_bytes (r : Response) : r.bytes.length = 4 + r.payload.length := by
  simp only [Response.bytes, List.length_append, List.length_cons, List.length_nil]

theorem Cpi.fullyRead_of_slot {c : Cpi} {r : Response} (h : c.slot = some r) (n : Nat) :
    c.fullyRead n = decide (4 + r.payload.length ≤ n) := by
  rw [Cpi.fullyRead, h, ← r.length_bytes]

/-- Settles O30: the slot is consumed when all its bytes have been read. -/
theorem readEndConsumesAFullyReadResponse : Obligations.ReadEndConsumesAFullyReadResponse := by
  unfold Obligations.ReadEndConsumesAFullyReadResponse
  intro s p n hn
  rw [exec_readEnd hn]
  refine ⟨fun r hb hs hle => ?_, fun r hb hs hlt => ?_, fun hb => ?_⟩
  · rw [State.endRead_of_consumed hb (by simpa [Cpi.fullyRead_of_slot hs] using hle)]
    rfl
  · rw [State.endRead_of_unread hb (by simpa [Cpi.fullyRead_of_slot hs] using hlt)]
  · rw [State.endRead_of_unstored hb]

/-! ### Address bytes -/

section
variable {s : State} {p : Port} {kind : StartKind}

theorem State.writeMatch_foreign (h : s.Hears p kind) {address : Byte} (ha : address ≠ s.writeAddress p) (data : List Byte) :
    s.writeMatch p ⟨kind, address⟩ data = s.setCpi p { s.cpi p with bus := .free } := by
  unfold State.writeMatch
  rw [State.startCondition_of_hears h]
  exact if_pos ha

/-- A write address byte in Idle and Holding. -/
theorem State.writeMatch_acknowledged (h : s.Hears p kind) (hs : (s.cpi p).state = .idle ∨ (s.cpi p).state = .holding)
    (data : List Byte) :
    s.writeMatch p ⟨kind, s.writeAddress p⟩ data = s.setCpi p ((s.cpi p).received (s.cpi p).left data) := by
  unfold State.writeMatch
  rw [State.startCondition_of_hears h]
  rcases hs with hs | hs <;> simp [hs, Cpi.left, Cpi.received]

theorem State.writeMatch_executing (h : s.Hears p kind) (hs : (s.cpi p).state = .executing) (data : List Byte) :
    s.writeMatch p ⟨kind, s.writeAddress p⟩ data = s.setCpi p { s.cpi p with bus := .writeRefused } := by
  unfold State.writeMatch
  rw [State.startCondition_of_hears h]
  simp [hs]

theorem State.readMatch_foreign (h : s.Hears p kind) {address : Byte} (ha : address ≠ s.readAddress p) :
    s.readMatch p ⟨kind, address⟩ = s.setCpi p { s.cpi p with bus := .free } := by
  unfold State.readMatch
  rw [State.startCondition_of_hears h]
  exact if_pos ha

theorem State.readMatch_idle (h : s.Hears p kind) (hs : (s.cpi p).state = .idle) :
    s.readMatch p ⟨kind, s.readAddress p⟩ = s.setCpi p { s.cpi p with bus := .readNone } := by
  unfold State.readMatch
  rw [State.startCondition_of_hears h]
  simp [hs]

theorem State.readMatch_holding (h : s.Hears p kind) (hs : (s.cpi p).state = .holding) :
    s.readMatch p ⟨kind, s.readAddress p⟩ = s.setCpi p { s.cpi p with bus := .readHeld } := by
  unfold State.readMatch
  rw [State.startCondition_of_hears h]
  simp [hs]

theorem State.readMatch_executing (h : s.Hears p kind) (hs : (s.cpi p).state = .executing) :
    s.readMatch p ⟨kind, s.readAddress p⟩ = s.setCpi p { s.cpi p with bus := .stretching } := by
  unfold State.readMatch
  rw [State.startCondition_of_hears h]
  simp [hs]

end

section
variable {s t : State} {p : Port}

/-- An address byte that finds the port unmoved by its START, and not listening, changes nothing. -/
theorem State.writeMatch_unheard {address : AddressByte} (h : s.startCondition p address.kind = s)
    (hb : (s.cpi p).bus ≠ .free) (data : List Byte) : s.writeMatch p address data = s := by
  unfold State.writeMatch
  simp only [h]
  split
  · rfl
  · cases hbus : (s.cpi p).bus with
    | free => exact absurd hbus hb
    | _ => cases (s.cpi p).state <;> rfl

theorem State.readMatch_unheard {address : AddressByte} (h : s.startCondition p address.kind = s)
    (hb : (s.cpi p).bus ≠ .free) : s.readMatch p address = s := by
  unfold State.readMatch
  simp only [h]
  split
  · rfl
  · cases hbus : (s.cpi p).bus with
    | free => exact absurd hbus hb
    | _ => cases (s.cpi p).state <;> rfl

/-- An address byte whose START ends a transaction goes on from where the end leaves the port. -/
theorem State.writeMatch_of_start {address : AddressByte} (h : s.startCondition p address.kind = t)
    (hfree : (t.cpi p).bus = .free) (data : List Byte) : s.writeMatch p address data = t.writeMatch p address data := by
  unfold State.writeMatch
  rw [h, State.startCondition_of_free hfree]

theorem State.readMatch_of_start {address : AddressByte} (h : s.startCondition p address.kind = t)
    (hfree : (t.cpi p).bus = .free) : s.readMatch p address = t.readMatch p address := by
  unfold State.readMatch
  rw [h, State.startCondition_of_free hfree]

/-- A repeated START that reaches a port that ignores the bus leaves it as it is. -/
theorem State.startCondition_of_ignored {address : AddressByte} (h : (s.cpi p).bus = .ignoring ∧ address.kind = .repeated) :
    s.startCondition p address.kind = s := by
  rw [h.2, State.startCondition_of_ignoring h.1]

end

theorem Cpi.left_idle {c : Cpi} (h : c.state = .idle) : c.left = .idle := if_neg (by rw [h]; decide)

theorem Cpi.left_holding {c : Cpi} (h : c.state = .holding) : c.left = .holding := if_pos h

/-- Settles O27: an address byte first ends what is open, then is taken by the state of the port. -/
theorem writeAddressMatchFillsTheBuffer : Obligations.WriteAddressMatchFillsTheBuffer := by
  unfold Obligations.WriteAddressMatchFillsTheBuffer
  refine ⟨fun s p kind data hn hh => ⟨fun hs => ?_, fun hs => ?_, fun hs => ?_, fun address ha => ?_⟩,
    fun s p address data h => ?_,
    fun s p address data hn => ⟨fun h => ?_, fun h => ?_, fun h => ?_⟩⟩
  · refine (exec_writeAddressMatch hn _ _).trans (congrArg _ ((State.writeMatch_acknowledged hh (.inl hs) data).trans ?_))
    rw [Cpi.left_idle hs]
    rfl
  · refine (exec_writeAddressMatch hn _ _).trans (congrArg _ ((State.writeMatch_acknowledged hh (.inr hs) data).trans ?_))
    rw [Cpi.left_holding hs]
    rfl
  · exact (exec_writeAddressMatch hn _ _).trans (congrArg _ (State.writeMatch_executing hh hs data))
  · exact (exec_writeAddressMatch hn _ _).trans (congrArg _ (State.writeMatch_foreign hh ha data))
  · cases hn : s.nreset with
    | false => exact exec_writeAddressMatch_low hn address data
    | true =>
      have hi := h.resolve_left (by rw [hn]; decide)
      rw [exec_writeAddressMatch hn,
        State.writeMatch_unheard (State.startCondition_of_ignored hi) (by rw [hi.1]; decide)]
  · obtain ⟨hfree, hreset⟩ := State.endWrite_freed h
    refine ⟨s.endWrite p, exec_frameTaken hn, hfree, ?_⟩
    rw [exec_writeAddressMatch hn, exec_writeAddressMatch (hreset.trans hn),
      State.writeMatch_of_start (State.startCondition_of_write h address.kind) hfree]
  · obtain ⟨hfree, hreset⟩ := State.endRead_freed 0 h
    refine ⟨s.endRead p 0, exec_readEnd hn 0, hfree, ?_⟩
    rw [exec_writeAddressMatch hn, exec_writeAddressMatch (hreset.trans hn),
      State.writeMatch_of_start (State.startCondition_of_read h address.kind) hfree]
  · rw [exec_writeAddressMatch hn,
      State.writeMatch_unheard (State.startCondition_of_stretching h address.kind) (by rw [h]; decide)]

/-! ### What is sent -/

/-- The bytes of a held response (R175). -/
theorem Response.bytes_eq (r : Response) :
    r.bytes = [r.completion.code, if r.lost then 1 else 0, r.code, byteOf r.payload.length] ++ r.payload := by
  rw [Response.bytes]
  cases r.lost <;> rfl

theorem State.sentByte_held {s : State} {p : Port} {r : Response} (h : (s.cpi p).slot = some r) (k : Nat) :
    (s.setCpi p { s.cpi p with bus := .readHeld }).sentByte p k = r.bytes[k]?.getD 0xFF := by
  simp [State.sentByte, Cpi.sending, h]

theorem State.sentByte_none (s : State) (p : Port) (k : Nat) :
    (s.setCpi p { s.cpi p with bus := .readNone }).sentByte p k = ([0x01, 0, 0, 0] : List Byte)[k]?.getD 0xFF := by
  simp [State.sentByte, Cpi.sending, Completion.code]

theorem State.sentByte_pending (s : State) (p : Port) (code : Byte) (k : Nat) :
    (s.setCpi p { s.cpi p with bus := .readPending code, pendingGiven := true }).sentByte p k
      = ([0x02, 0, code, 0] : List Byte)[k]?.getD 0xFF := by
  simp [State.sentByte, Cpi.sending, Completion.code]

/-- After four bytes 0xFF is sent. -/
theorem getD_of_four {l : List Byte} (hl : l.length = 4) {k : Nat} (h : 4 ≤ k) : l[k]?.getD 0xFF = 0xFF := by
  rw [List.getElem?_eq_none (by omega), Option.getD_none]

/-- Settles O29: an address byte first ends what is open, then the state of the port chooses what is sent. -/
theorem readAddressMatchChoosesTheResponse : Obligations.ReadAddressMatchChoosesTheResponse := by
  unfold Obligations.ReadAddressMatchChoosesTheResponse
  refine ⟨fun s p kind hn hh => ⟨fun r hs hslot => ?_, fun hs => ?_, fun n hs => ?_, fun address ha => ?_⟩,
    fun s p address h => ?_, fun s p address hn => ⟨fun h => ?_, fun h => ?_, fun h => ?_⟩, rfl, rfl, rfl, rfl⟩
  · refine ⟨_, (exec_readAddressMatch hn _).trans (congrArg _ (State.readMatch_holding hh hs)), rfl, fun k => ?_⟩
    rw [State.sentByte_held hslot, Response.bytes_eq]
  · refine ⟨_, (exec_readAddressMatch hn _).trans (congrArg _ (State.readMatch_executing hh hs)), rfl, ?_⟩
    simp [State.sclHeld]
  · refine ⟨_, (exec_readAddressMatch hn _).trans (congrArg _ (State.readMatch_idle hh hs)), rfl, ?_, ?_, ?_, ?_,
      fun k hk => ?_, ?_⟩
    · rw [State.sentByte_none]; rfl
    · rw [State.sentByte_none]; rfl
    · rw [State.sentByte_none]; rfl
    · rw [State.sentByte_none]; rfl
    · rw [State.sentByte_none, getD_of_four rfl hk]
    · refine (exec_readEnd (by simpa using hn) n).trans ?_
      rw [State.endRead_of_unstored (.inl (by simp))]
      simp
  · exact (exec_readAddressMatch hn _).trans (congrArg _ (State.readMatch_foreign hh ha))
  · cases hn : s.nreset with
    | false => exact exec_readAddressMatch_low hn address
    | true =>
      have hi := h.resolve_left (by rw [hn]; decide)
      rw [exec_readAddressMatch hn,
        State.readMatch_unheard (State.startCondition_of_ignored hi) (by rw [hi.1]; decide)]
  · obtain ⟨hfree, hreset⟩ := State.endWrite_freed h
    refine ⟨s.endWrite p, exec_frameTaken hn, hfree, ?_⟩
    rw [exec_readAddressMatch hn, exec_readAddressMatch (hreset.trans hn),
      State.readMatch_of_start (State.startCondition_of_write h address.kind) hfree]
  · obtain ⟨hfree, hreset⟩ := State.endRead_freed 0 h
    refine ⟨s.endRead p 0, exec_readEnd hn 0, hfree, ?_⟩
    rw [exec_readAddressMatch hn, exec_readAddressMatch (hreset.trans hn),
      State.readMatch_of_start (State.startCondition_of_read h address.kind) hfree]
  · rw [exec_readAddressMatch hn,
      State.readMatch_unheard (State.startCondition_of_stretching h address.kind) (by rw [h]; decide)]

/-! ### The frame judged -/

section
variable {s : State} {p : Port}

theorem State.judgeFrame_of_long (h : (s.cpi p).long = true) : s.judgeFrame p = s.frameError p 1 := if_pos h

theorem State.judgeFrame_of_short (h : (s.cpi p).long = false)
    (hb : (s.cpi p).buffer.length = 1 ∨ (s.cpi p).buffer.length = 2) : s.judgeFrame p = s.frameError p 2 := by
  unfold State.judgeFrame
  rw [if_neg (Bool.eq_false_iff.1 h)]
  split
  next heq =>
    rw [heq] at hb
    simp only [List.length_cons] at hb
    omega
  next => rfl

theorem State.judgeFrame_of_badLength (h : (s.cpi p).long = false) {code session n : Byte} {payload : List Byte}
    (hb : (s.cpi p).buffer = code :: session :: n :: payload) (hn : 61 < n.toNat ∨ payload.length ≠ n.toNat) :
    s.judgeFrame p = s.frameError p 3 := by
  unfold State.judgeFrame
  rw [if_neg (Bool.eq_false_iff.1 h), hb]
  exact if_neg (by omega)

theorem State.judgeFrame_of_frame (h : (s.cpi p).long = false) {code session n : Byte} {payload : List Byte}
    (hb : (s.cpi p).buffer = code :: session :: n :: payload) (hn : n.toNat ≤ 61) (hl : payload.length = n.toNat) :
    s.judgeFrame p = s.takeCommand p code session payload := by
  unfold State.judgeFrame
  rw [if_neg (Bool.eq_false_iff.1 h), hb]
  exact if_pos ⟨hn, hl⟩

theorem Command.ofCode_eq_none {code : Byte} (h : ∀ k : Command, k.code ≠ code) : Command.ofCode code = none :=
  List.find?_eq_none.2 fun c _ => by simpa using h c

theorem State.takeCommand_unknown {code : Byte} (h : ∀ k : Command, k.code ≠ code) (session : Byte) (payload : List Byte) :
    s.takeCommand p code session payload = s.answer p .unknownCommand code [] := by
  unfold State.takeCommand
  rw [Command.ofCode_eq_none h]

end

/-- Settles O28: the buffer is judged by the rows of Table 10.3 in their order. -/
theorem frameTakenJudgesTheBuffer : Obligations.FrameTakenJudgesTheBuffer := by
  unfold Obligations.FrameTakenJudgesTheBuffer
  constructor
  · intro s p hn hw c respond error
    have herror : ∀ d, s.frameError p d = error d := fun _ => rfl
    rw [exec_frameTaken hn]
    refine ⟨fun hb hl => ?_, fun hl => ?_, fun hl hb => ?_, fun code session n payload hl hb hbad => ?_,
      fun code session n payload hl hb hle hlen hun => ?_⟩
    · rw [State.endWrite_of_empty hw hb hl]
      rfl
    · rw [State.endWrite_of_bytes hw (.inr hl), State.judgeFrame_of_long hl, herror]
    · have hne : (s.cpi p).buffer ≠ [] := fun h0 => by
        have h0 : c.buffer = [] := h0
        rw [h0] at hb
        simp at hb
      rw [State.endWrite_of_bytes hw (.inl hne), State.judgeFrame_of_short hl hb, herror]
    · have hne : (s.cpi p).buffer ≠ [] := List.ne_nil_of_length_eq_add_one (congrArg List.length hb)
      rw [State.endWrite_of_bytes hw (.inl hne), State.judgeFrame_of_badLength hl hb hbad, herror]
    · have hne : (s.cpi p).buffer ≠ [] := List.ne_nil_of_length_eq_add_one (congrArg List.length hb)
      rw [State.endWrite_of_bytes hw (.inl hne), State.judgeFrame_of_frame hl hb hle hlen, State.takeCommand_unknown hun]
      rfl
  · intro s p
    refine ⟨fun hn hb => ?_, fun h => ?_⟩
    · rw [exec_frameTaken hn, State.endWrite_of_refused hb]
    · cases hn : s.nreset with
      | false => exact exec_frameTaken_low hn
      | true =>
        obtain ⟨h1, h2⟩ := h.resolve_left (by rw [hn]; decide)
        rw [exec_frameTaken hn, State.endWrite_of_other h1 h2]

/-! ### The limits of the bus -/

section
variable {s : State} {p : Port}

theorem State.abandon_of_writing (h : (s.cpi p).bus = .writing) : s.abandon p = (s.frameError p 4).ignoreBus p := by
  unfold State.abandon
  rw [h]

theorem State.abandon_of_quiet (h : s.BusQuiet p) : s.abandon p = s := by
  unfold State.abandon
  rcases h with h | h <;> rw [h]

/-- Every transaction but a write just ends. -/
theorem State.abandon_of_other (h : (s.cpi p).bus ≠ .writing) (hq : ¬ s.BusQuiet p) : s.abandon p = s.ignoreBus p := by
  unfold State.abandon
  cases hb : (s.cpi p).bus with
  | writing => exact absurd hb h
  | free => exact absurd (.inl hb) hq
  | ignoring => exact absurd (.inr hb) hq
  | _ => rfl

end

/-- Settles O31: the end of the stretch limit, and the abandonment of each transaction. -/
theorem stretchAndHoldLimitsEnd : Obligations.StretchAndHoldLimitsEnd := by
  unfold Obligations.StretchAndHoldLimitsEnd
  refine ⟨fun s p code hn hb hc => ?_, fun s p hn => ⟨fun hw => ?_, fun hw hq => ?_, fun hq => ⟨?_, ?_, fun n => ?_⟩⟩⟩
  · have hheld : (s.nreset && s.sclHeld p) = true := by simp [hn, State.sclHeld, hb]
    have hsent : (s.cpi p).pendingSent = { s.cpi p with bus := .readPending code, pendingGiven := true } := by
      simp only [Cpi.pendingSent, hc, Option.getD_some]
    have hexec : exec (.stretchLimitExpiry p) s
        = .next (s.setCpi p { s.cpi p with bus := .readPending code, pendingGiven := true }) := by
      rw [← hsent]
      exact congrArg _ (if_pos hheld)
    refine ⟨_, hexec, rfl, ?_, ?_, ?_, ?_, ?_, fun k hk => ?_⟩
    · simp [State.sclHeld]
    · rw [State.sentByte_pending]; rfl
    · rw [State.sentByte_pending]; rfl
    · rw [State.sentByte_pending]; rfl
    · rw [State.sentByte_pending]; rfl
    · rw [State.sentByte_pending, getD_of_four rfl hk]
  · rw [exec_busHoldAbandon hn, State.abandon_of_writing hw, State.ignoreBus, State.frameError, State.answer,
      State.setCpi_cpi, State.setCpi_setCpi, if_pos rfl]
    rfl
  · rw [exec_busHoldAbandon hn, State.abandon_of_other hw hq]
    rfl
  · rw [exec_busHoldAbandon hn, State.abandon_of_quiet hq]
  · rw [exec_frameTaken hn, State.endWrite_of_quiet hq]
  · rw [exec_readEnd hn, State.endRead_of_quiet hq]

/-! ### ATTN -/

/-- What ATTN looks at in a CPI (R170). -/
theorem State.attn_setCpi {s : State} {p : Port} {c : Cpi} (h : c.attention = (s.cpi p).attention) :
    (s.setCpi p c).attn p = s.attn p := by
  simp [State.attn, h]

/-- Settles O32: the line by its parts, none of which an address byte touches. -/
theorem attnFollowsNoticesAndPendingResponse : Obligations.AttnFollowsNoticesAndPendingResponse := by
  unfold Obligations.AttnFollowsNoticesAndPendingResponse
  refine ⟨fun s p => ?_, fun s p address data hq => ?_⟩
  · simp [State.attn, NoticeQueue.attention, Cpi.attention, or_assoc, Nat.pos_iff_ne_zero]
  · cases hn : s.nreset with
    | false => exact ⟨s, exec_writeAddressMatch_low hn address data, rfl⟩
    | true =>
      refine ⟨_, exec_writeAddressMatch hn address data, ?_⟩
      obtain ⟨kind, byte⟩ := address
      by_cases hh : s.Hears p kind
      · by_cases ha : byte = s.writeAddress p
        · subst ha
          cases hs : (s.cpi p).state with
          | idle =>
            rw [State.writeMatch_acknowledged hh (.inl hs)]
            exact State.attn_setCpi rfl
          | holding =>
            rw [State.writeMatch_acknowledged hh (.inr hs)]
            exact State.attn_setCpi rfl
          | executing =>
            rw [State.writeMatch_executing hh hs]
            exact State.attn_setCpi rfl
          | receiving =>
            unfold State.writeMatch
            rw [State.startCondition_of_hears hh]
            simp [hs, State.attn, Cpi.attention]
        · rw [State.writeMatch_foreign hh ha]
          exact State.attn_setCpi rfl
      · have hi : (s.cpi p).bus = .ignoring := hq.resolve_left fun h => hh (.inl h)
        have hk : kind = .repeated := by
          cases kind with
          | start => exact absurd hq.hears hh
          | repeated => rfl
        rw [State.writeMatch_unheard (State.startCondition_of_ignored ⟨hi, hk⟩) (by rw [hi]; decide)]

end Sys2Proof.Machine
end

section
/-! Field Start, Blank Start, REF_IN, and the commands that the Timing Generator and the Commit Controller complete (R37 to
R50, R95). -/

namespace Sys2Proof.Machine

/-! ### Posts to the supervisor and to every Attached port -/

theorem State.supervisor_attached {s : State} {p : Port} (h : s.supervisor = some p) : (s.session p).state = .attached := by
  unfold State.supervisor at h
  split at h
  next k _ =>
    split at h <;> cases h
    next ha => simpa [State.isAttached] using ha
  next => cases h

/-- The supervisor, which is Attached, takes the notice. -/
theorem State.postSupervisor_noticeQueue (s : State) (n : Notice) (k : Port) :
    (s.postSupervisor n).noticeQueue k = if s.supervisor = some k then (s.noticeQueue k).take n else s.noticeQueue k := by
  unfold State.postSupervisor
  cases hs : s.supervisor with
  | none => simp
  | some p =>
    have ha := State.supervisor_attached hs
    rw [State.post_noticeQueue]
    by_cases hk : k = p
    · subst hk
      simp [ha]
    · simp [hk, Ne.symm hk]

/-- A notice that does not read the Notice Queues, posted to each port of a list that names it once. -/
theorem State.foldl_postAttached_noticeQueue (f : State → Notice) (s : State)
    (hf : ∀ t u, State.SameButQueues t u → f u = f t) {ports : List Port} (hports : ports.Nodup) (k : Port) :
    (ports.foldl (fun t p => t.postAttached (f t) p) s).noticeQueue k =
      if k ∈ ports ∧ (s.session k).state = .attached then (s.noticeQueue k).take (f s) else s.noticeQueue k := by
  induction ports generalizing s with
  | nil => simp
  | cons p rest ih =>
    obtain ⟨hp, hrest⟩ := List.nodup_cons.1 hports
    have hsame := s.sameButQueues_postAttached (f s) p
    rw [List.foldl_cons, ih _ hrest, hsame.session, hf _ _ hsame, State.postAttached_noticeQueue]
    by_cases hk : k = p
    · subst hk
      simp [hp]
    · simp [hk]

/-- The same posted to all ports. -/
theorem State.foldl_allPorts_noticeQueue (f : State → Notice) (s : State)
    (hf : ∀ t u, State.SameButQueues t u → f u = f t) (k : Port) :
    (allPorts.foldl (fun t p => t.postAttached (f t) p) s).noticeQueue k =
      if (s.session k).state = .attached then (s.noticeQueue k).take (f s) else s.noticeQueue k := by
  have hall : ∀ p : Port, p ∈ allPorts := by decide
  rw [State.foldl_postAttached_noticeQueue f s hf (by decide) k]
  simp [hall k]

/-! ### What a Field Start does before the snapshot -/

/-- The reference state and the flag by which a blanking ends (Table 3.3). -/
theorem Timing.endBlanking_reference (t : Timing) :
    (t.endBlanking.1, t.endBlanking.2.1) =
      match t.refState, t.pendingRef with
      | .free, flag => (.free, flag)
      | .holdover, false => (.holdover, false)
      | .holdover, true => (.locked, false)
      | .locked, true => (.locked, false)
      | .locked, false => (.holdover, false) := by
  unfold Timing.endBlanking
  cases t.refState <;> cases t.pendingRef <;> rfl

/-- The notice with which a blanking ends (R45). -/
theorem Timing.endBlanking_notice (t : Timing) :
    t.endBlanking.2.2 =
      match t.refState, t.pendingRef with
      | .locked, false => some .referenceLost
      | .holdover, true => some .referenceFound
      | .locked, true => none
      | .holdover, false => none
      | .free, _ => none := by
  unfold Timing.endBlanking
  cases t.refState <;> cases t.pendingRef <;> rfl

theorem followTaken_eq (old new : ScanRecord) (r : RefState × Bool) :
    followTaken old new r =
      if new.follow = old.follow then r else if new.follow then (.holdover, false) else (.free, false) := by
  unfold followTaken
  cases old.follow <;> cases new.follow <;> rfl

/-- The Scan Record of the field that begins. -/
def State.nextScan (s : State) : ScanRecord := if s.live.pendingMark then s.live.pendingScan else s.live.scan

/-- The reference state and the flag of the field that begins. -/
def State.nextReference (s : State) : RefState × Bool :=
  if s.live.pendingMark = false ∨ s.live.pendingScan.follow = s.live.scan.follow then
    (s.timing.endBlanking.1, s.timing.endBlanking.2.1)
  else if s.live.pendingScan.follow then (.holdover, false)
  else (.free, false)

/-- The end of the blanking and the taking of a record write the number of the field, the reference, the length of the
blanking and the Scan Record, and post. -/
theorem State.takeScan_endBlanking_eq (s : State) :
    ∃ v, s.endBlanking.takeScan =
      { s with
        timing :=
          { s.timing with
            field := s.timing.field + 1, refState := s.nextReference.1, pendingRef := s.nextReference.2
            lastBlanking := s.timing.blankingEnd s.live.scan }
        live := { s.live with scan := s.nextScan, pendingMark := false }
        notices := v } := by
  obtain ⟨v, hv⟩ := s.takeScan_endBlanking_frame
  refine ⟨v, ?_⟩
  rw [hv]
  unfold State.nextScan State.nextReference
  cases hm : s.live.pendingMark with
  | false =>
    have hlive : { s.live with scan := s.live.scan, pendingMark := false } = s.live := by rw [← hm]
    simp only [true_or, if_true, Bool.false_eq_true, if_false, hlive]
    rfl
  | true =>
    simp only [if_true, Bool.true_eq_false, false_or]
    rw [State.scanTaken, followTaken_eq]
    rfl

theorem exec_fieldStart {s : State} (hn : s.nreset = true) (hr : s.timing.region = .blanking) (hw : s.window = none) :
    exec .fieldStart s =
      .next ((({ s with compose := { s.compose with pipe := .lineEnd true } } : State).endBlanking.takeScan).beginField
        s.live.pendingMark) := by
  have hc : (s.nreset && s.timing.region == .blanking && s.window.isNone) = true := by rw [hn, hr, hw]; rfl
  exact congrArg _ (if_pos hc)

/-- Settles O34: the field as `beginField` leaves it, after the blanking has ended and the record is taken. -/
theorem fieldStartBeginsAField : Obligations.FieldStartBeginsAField := by
  unfold Obligations.FieldStartBeginsAField
  intro s hn hr hw scan blank clip
  obtain ⟨v, hv⟩ := State.takeScan_endBlanking_eq { s with compose := { s.compose with pipe := .lineEnd true } }
  have hexec := exec_fieldStart hn hr hw
  rw [hv] at hexec
  refine ⟨_, hexec, rfl, rfl, rfl, rfl, ?_, rfl, rfl, rfl, rfl, rfl, rfl, fun p => ?_, fun q => ⟨?_, ?_⟩, rfl,
    fun q => ?_, rfl, rfl⟩
  · simp [State.srcFs, State.srcLs, State.beginField, Timing.startField, hn]
  · refine (Timing.startField_waiters _ p).trans ?_
    dsimp only
    cases hw : s.timing.waiters[p] with
    | none => rfl
    | some w =>
      rw [Option.map_some, Waiter.counted_eq]
      exact apply_ite some _ _ _
  · simp [State.beginField, State.snapshotNow, Live.isHeld]
  · simp [State.beginField, State.snapshotNow, State.planeOwner]
  · simp [State.beginField, Live.latchGuards, GuardRecord.atFieldStart, clip, scan, Rect.clip_eq, State.nextScan]

/-! ### The notices of a Field Start -/

theorem State.endBlanking_of_none {s : State} (h : s.timing.endBlanking.2.2 = none) :
    s.endBlanking = s.blankingEnded := by
  unfold State.endBlanking
  simp only
  split
  next hk => rw [h] at hk; cases hk
  next => rfl

theorem State.endBlanking_of_some {s : State} {kind : NoticeKind} (h : s.timing.endBlanking.2.2 = some kind) :
    s.endBlanking = s.blankingEnded.postSupervisor (.plain kind (s.timing.field + 1)) := by
  unfold State.endBlanking
  simp only
  split
  next hk => rw [h] at hk; cases hk; rfl
  next hk => rw [h] at hk; cases hk

theorem State.endBlanking_noticeQueue (s : State) (k : Port) :
    s.endBlanking.noticeQueue k =
      if s.supervisor = some k then
        (s.noticeQueue k).takes ((s.timing.endBlanking.2.2.map fun kind => Notice.plain kind (s.timing.field + 1)).toList)
      else s.noticeQueue k := by
  cases h : s.timing.endBlanking.2.2 with
  | none =>
    rw [State.endBlanking_of_none h]
    exact (ite_self _).symm
  | some kind =>
    rw [State.endBlanking_of_some h]
    exact State.postSupervisor_noticeQueue s.blankingEnded _ k

theorem scanChangedFlags_eq_sum (old new : ScanRecord) :
    scanChangedFlags old new =
      (if old.width ≠ new.width ∨ old.height ≠ new.height then 1 else 0)
        + (if old.hblank ≠ new.hblank ∨ old.vblank ≠ new.vblank then 2 else 0)
        + (if old.follow ≠ new.follow ∨ old.lossMargin ≠ new.lossMargin then 4 else 0)
        + (if old.background ≠ new.background then 8 else 0) + (if old.format ≠ new.format then 16 else 0) := by
  have hsum : ∀ a b c d e : Bool,
      ((if a then 1 else 0) ||| (if b then 2 else 0) ||| (if c then 4 else 0) ||| (if d then 8 else 0)
        ||| (if e then 16 else 0) : Byte)
      = (if a then 1 else 0) + (if b then 2 else 0) + (if c then 4 else 0) + (if d then 8 else 0)
        + (if e then 16 else 0) := by decide
  have h := hsum (decide (old.width ≠ new.width ∨ old.height ≠ new.height))
    (decide (old.hblank ≠ new.hblank ∨ old.vblank ≠ new.vblank))
    (decide (old.follow ≠ new.follow ∨ old.lossMargin ≠ new.lossMargin)) (decide (old.background ≠ new.background))
    (decide (old.format ≠ new.format))
  simp only [decide_eq_true_eq] at h
  exact h

theorem State.takeScan_noticeQueue (s : State) (k : Port) :
    s.takeScan.noticeQueue k =
      if s.live.pendingMark = true ∧ (s.session k).state = .attached then
        (s.noticeQueue k).take (scanChanged s.timing.field s.live.scan s.live.pendingScan)
      else s.noticeQueue k := by
  cases hm : s.live.pendingMark with
  | false =>
    rw [State.takeScan_of_not_pending hm]
    simp
  | true =>
    unfold State.takeScan
    rw [if_pos hm]
    refine (State.foldl_allPorts_noticeQueue (fun t => scanChanged t.timing.field s.live.scan s.live.pendingScan)
      s.scanTaken (fun t u h => by rw [h.timing]) k).trans ?_
    simp only [true_and]
    rfl

/-- Settles O35: the reference and the length by `takeScan_endBlanking_eq`, and the two posts one after the other. -/
theorem fieldStartMovesTheReferenceAndPosts : Obligations.FieldStartMovesTheReferenceAndPosts := by
  unfold Obligations.FieldStartMovesTheReferenceAndPosts
  refine ⟨fun s t hn hr hw ht => ?_, fun s t hn hr hw ht => ?_, fun _ _ => rfl⟩
  · intro ended
    rw [exec_fieldStart hn hr hw] at ht
    obtain rfl := Host.Outcome.next.inj ht
    obtain ⟨v, hv⟩ := State.takeScan_endBlanking_eq { s with compose := { s.compose with pipe := .lineEnd true } }
    rw [hv]
    have hended : ended = (s.timing.endBlanking.1, s.timing.endBlanking.2.1) := (Timing.endBlanking_reference _).symm
    refine ⟨?_, fun h => ?_, fun h hp => ?_, fun h hp => ?_⟩
    · rw [hended]
      rfl
    · show s.timing.blankingEnd s.live.scan = _
      unfold Timing.blankingEnd
      cases hs : s.timing.refState with
      | locked => exact absurd hs h
      | _ => rfl
    · show s.timing.blankingEnd s.live.scan = _
      simp [Timing.blankingEnd, h, hp]
    · show s.timing.blankingEnd s.live.scan = _
      simp [Timing.blankingEnd, h, hp, Timing.nextLineStart]
  · intro field reference old new flags p
    rw [exec_fieldStart hn hr hw] at ht
    obtain rfl := Host.Outcome.next.inj ht
    have hreference : (s.timing.endBlanking.2.2.map fun kind => Notice.plain kind (s.timing.field + 1)).toList = reference := by
      rw [Timing.endBlanking_notice]
      show _ = (match s.timing.refState, s.timing.pendingRef with
        | .locked, false => [Notice.plain .referenceLost field]
        | .holdover, true => [.plain .referenceFound field]
        | .locked, true => []
        | .holdover, false => []
        | .free, _ => [])
      cases s.timing.refState <;> cases s.timing.pendingRef <;> rfl
    obtain ⟨v, hv⟩ := State.sameButQueues_endBlanking { s with compose := { s.compose with pipe := .lineEnd true } }
    have hqueue : (State.endBlanking { s with compose := { s.compose with pipe := .lineEnd true } }).noticeQueue p
        = if s.supervisor = some p then (s.noticeQueue p).takes reference else s.noticeQueue p := by
      rw [← hreference]
      exact State.endBlanking_noticeQueue { s with compose := { s.compose with pipe := .lineEnd true } } p
    have hflags : scanChangedFlags s.live.scan s.live.pendingScan = flags := scanChangedFlags_eq_sum _ _
    refine (State.takeScan_noticeQueue _ p).trans ?_
    rw [hqueue, hv]
    show (if s.live.pendingMark = true ∧ (s.session p).state = .attached then
        (if s.supervisor = some p then (s.noticeQueue p).takes reference else s.noticeQueue p).take
          { Notice.plain .scanChanged field with d0 := scanChangedFlags s.live.scan s.live.pendingScan }
      else if s.supervisor = some p then (s.noticeQueue p).takes reference else s.noticeQueue p) = _
    rw [hflags]
    by_cases ha : (s.session p).state = .attached
    · rw [if_pos ha]
      cases s.live.pendingMark <;> by_cases hs : s.supervisor = some p <;>
        simp [ha, hs, NoticeQueue.takes, List.foldl_append]
    · have hs : s.supervisor ≠ some p := fun h => ha (State.supervisor_attached h)
      simp [ha, hs]

/-! ### Overdue commands -/

theorem exec_waitFieldCompletion {s : State} {p : Port} {w : Waiter} {field : Byte} (hn : s.nreset = true)
    (hw : s.timing.waiters[p] = some w) (hd : w.due = some field) :
    exec (.waitFieldCompletion p) s = .next ((s.setWaiter p none).complete p .ok [field]) := by
  show execWaitFieldCompletion p s = _
  simp only [execWaitFieldCompletion, hw, hd, hn, if_true]

theorem Batch.timeoutDue_iff {p : Port} {b : Batch} :
    b.timeoutDue p = true ↔ b.port = p ∧ b.wait = true ∧ b.timedOut.isSome = true := by
  simp [Batch.timeoutDue, and_assoc]

theorem Batch.not_timeoutDue {p : Port} {b : Batch} (h : b.port = p → b.wait = false ∨ b.timedOut = none) :
    b.timeoutDue p = false := by
  rw [Bool.eq_false_iff, ne_eq, Batch.timeoutDue_iff]
  rintro ⟨hp, hw, ht⟩
  rcases h hp with h | h <;> simp [h] at hw ht

theorem exec_sealTimeout {s : State} {p : Port} {l r : List Batch} {b : Batch} {field : Byte} (hn : s.nreset = true)
    (hq : s.queue = l ++ b :: r) (hl : ∀ x ∈ l, Batch.timeoutDue p x = false) (hb : b.timeoutDue p = true)
    (hf : b.timedOut = some field) :
    exec (.sealTimeout p) s
      = .next ({ s with queue := l ++ { b with wait := false, timedOut := none } :: r }.complete p .timeout
          (b.acceptance ++ [field])) := by
  show execSealTimeout p s = _
  simp only [execSealTimeout, hq, find?_split hl hb, modifyFirst_split hl hb, hn, if_true, hf, Option.getD_some]

/-- Settles O36: each of the three completions by the entry that is due. -/
theorem overdueCommandsComplete : Obligations.OverdueCommandsComplete := by
  unfold Obligations.OverdueCommandsComplete
  refine ⟨fun s p w field hn hw hd => exec_waitFieldCompletion hn hw hd,
    fun s p l b r field hn hq hl hp hw hf => ?_, fun s b => ⟨fun h => State.overdueTimeout_none h, fun field hw hf => ?_⟩,
    fun _ => rfl, rfl, fun _ => rfl⟩
  · exact exec_sealTimeout hn hq (fun x hx => Batch.not_timeoutDue (hl x hx))
      (Batch.timeoutDue_iff.2 ⟨hp, hw, by rw [hf]; rfl⟩) hf
  · rw [State.overdueTimeout_eq hw hf]
    cases ht : b.target <;> simp [Batch.acceptance, be16, targetBytes, ht]

/-! ### REF_IN -/

/-- Settles O37: the pulse by the reference state. -/
theorem refInPulseSetsTheFlag : Obligations.RefInPulseSetsTheFlag := by
  unfold Obligations.RefInPulseSetsTheFlag
  intro s hn
  refine ⟨fun h => ?_, fun h => ?_⟩
  · have hc : (s.nreset && s.timing.refState != .free) = true := by simp [hn, h]
    exact congrArg _ (if_pos hc)
  · have hc : ¬ (s.nreset && s.timing.refState != .free) = true := by simp [h]
    exact congrArg _ (if_neg hc)

/-! ### Blank Start -/

theorem Batch.joined_eq (current : Byte) :
    Batch.joined current = fun b : Batch =>
      if b.state = .queued then
        { b with
          member := true, scanned := false
          reached := b.reached || b.target.any fun n => decide ((current - n).toNat < 128) }
      else b := by
  funext b
  unfold Batch.joined
  cases b.target <;> rfl

/-- Settles O38: the window that opens, and the marks of the blanking. -/
theorem blankStartOpensTheWindow : Obligations.BlankStartOpensTheWindow := by
  unfold Obligations.BlankStartOpensTheWindow
  intro s hn hr blank
  have hc : (s.nreset && s.timing.region == .active) = true := by rw [hn, hr]; rfl
  refine (congrArg Host.Outcome.next (if_pos hc) : execBlankStart s = _).trans ?_
  rw [State.openWindow, Batch.joined_eq]
  rfl

end Sys2Proof.Machine
end

section
/-! The walk of one pixel (R11 to R19, R25, R26) and its period in the delay line (R40, R143). -/

namespace Sys2Proof.Machine

/-! ### One plane of the walk -/

theorem Clip.contains_eq_true {c : Clip} {x y : Nat} :
    c.contains x y = true ↔ c.x0 ≤ x ∧ x ≤ c.x1 ∧ c.y0 ≤ y ∧ y ≤ c.y1 := by
  simp [Clip.contains, and_assoc]

theorem clipCovers_eq_true {c : Option Clip} {x y : Nat} :
    clipCovers c x y = true ↔ ∃ k, c = some k ∧ k.x0 ≤ x ∧ x ≤ k.x1 ∧ k.y0 ≤ y ∧ y ≤ k.y1 := by
  cases c with
  | none => simp [clipCovers]
  | some k => simp [clipCovers, Clip.contains_eq_true]

/-- A clipped rectangle covers the pixels of the rectangle that lie in the active area. -/
theorem clipCovers_clip {r : Rect} {width height x y : Nat} (hw : 0 < width) (hh : 0 < height) :
    clipCovers (r.clip width height) x y = true ↔
      r.x0.val ≤ x ∧ x ≤ min r.x1.val (width - 1) ∧ r.y0.val ≤ y ∧ y ≤ min r.y1.val (height - 1) := by
  rw [Rect.clip_eq]
  split
  next hout =>
    simp only [clipCovers, Bool.false_eq_true, false_iff]
    omega
  next => exact Clip.contains_eq_true

theorem Snapshot.covers_iff {snap : Snapshot} {p : Plane} {x y : Nat} (hw : 0 < snap.scan.width)
    (hh : 0 < snap.scan.height) :
    snap.covers p x y = true ↔
      snap.planes[p].enabled = true ∧ snap.planes[p].rect.x0.val ≤ x
        ∧ x ≤ min snap.planes[p].rect.x1.val (snap.scan.width - 1) ∧ snap.planes[p].rect.y0.val ≤ y
        ∧ y ≤ min snap.planes[p].rect.y1.val (snap.scan.height - 1) := by
  rw [Snapshot.covers, Bool.and_eq_true, clipCovers_clip hw hh]

theorem recordFault_some (o : Port) (p : Plane) (set : Vector (Option Plane) 3) :
    recordFault (some o) p set = set.set o (some (match set[o] with | none => p | some q => if p < q then p else q)) := by
  simp only [recordFault]
  cases set[o] <;> rfl

section
variable {snap : Snapshot} {x y : Nat} {a b : Sample} {w : Walk} {p : Plane}

theorem paint_of_uncovered (h : ¬ snap.covers p x y = true) : paint snap x y a b w p = w := if_neg h

theorem paint_of_held (h : snap.covers p x y = true) (hheld : snap.held[p] = true) :
    paint snap x y a b w p = { w with colour := snap.planes[p].fill } := by
  unfold paint
  rw [if_pos h]
  exact if_pos hheld

/-- A covering plane that is not held: its colour combined, and a substitution recorded. -/
theorem paint_of_shown (h : snap.covers p x y = true) (hheld : snap.held[p] = false) {c : Colour} {fault : Option Stream}
    (hc : planeColour snap snap.planes[p] a b = (c, fault)) :
    paint snap x y a b w p =
      { w with colour := combine snap.planes[p].mode c w.colour }.recorded snap.owners[p] p fault := by
  unfold paint
  rw [if_pos h]
  simp only [hheld, Bool.false_eq_true, if_false, hc]

end

/-- Settles O41: a plane that covers is held, or shows the colour of its source. -/
theorem eachCoveringPlaneIsPainted : Obligations.EachCoveringPlaneIsPainted := by
  unfold Obligations.EachCoveringPlaneIsPainted
  refine ⟨fun _ _ _ _ _ _ _ => rfl, ?_⟩
  intro snap x y a b w p hw hh r covers shown noted
  have hcovers : snap.covers p x y = true ↔ covers := Snapshot.covers_iff hw hh
  refine ⟨fun h => paint_of_uncovered (mt hcovers.1 h), fun h hheld => paint_of_held (hcovers.2 h) hheld,
    fun h hheld => ?_⟩
  have hshown : ∀ c, planeColour snap r a b = (c, none) → paint snap x y a b w p = shown c := fun c hc =>
    paint_of_shown (hcovers.2 h) hheld hc
  have hnoted : ∀ o (set : Vector (Option Plane) 3), recordFault (some o) p set = noted o set := fun o set =>
    recordFault_some o p set
  refine ⟨fun hs => ?_, fun hs hv => ?_, fun hs hv hf => ?_, fun hs hv hf hp => ?_, fun bank hs hv hf hp => ?_,
    fun o hs hv ho => ?_, fun o hs hv ho => ?_⟩
  · exact hshown _ (by simp only [planeColour, hs])
  · exact hshown _ (by simp only [planeColour, hs, hv, if_true])
  · exact hshown _ (by simp only [planeColour, hs, hv, if_true, streamBColour, hf])
  · exact hshown _ (by simp only [planeColour, hs, hv, if_true, streamBColour, hf, indexedColour, hp, Colour.grey])
  · exact hshown _ (by simp only [planeColour, hs, hv, if_true, streamBColour, hf, indexedColour, hp])
  · have hc : planeColour snap r a b = (r.fill, some .a) := by
      simp only [planeColour, hs, hv, Bool.false_eq_true, if_false]
    rw [paint_of_shown (hcovers.2 h) hheld hc, ho, Walk.recorded, hnoted]
  · have hc : planeColour snap r a b = (r.fill, some .b) := by
      simp only [planeColour, hs, hv, Bool.false_eq_true, if_false]
    rw [paint_of_shown (hcovers.2 h) hheld hc, ho, Walk.recorded, hnoted]

/-! ### The period of a pixel -/

theorem GuardRecord.folded_eq (x y : Nat) (c : Colour) (r : GuardRecord) :
    r.folded x y c =
      match r.note with
      | none => r
      | some n =>
        if n.enabled = true ∧ ∃ k, n.clip = some k ∧ k.x0 ≤ x ∧ x ≤ k.x1 ∧ k.y0 ≤ y ∧ y ≤ k.y1 then
          { r with
            note := some
              { n with
                signature :=
                  n.signature.rotateLeft 1 ^^^ BitVec.ofNat 32 (c.r.toNat * 65536 + c.g.toNat * 256 + c.b.toNat) } }
        else r := by
  unfold GuardRecord.folded
  cases r.note with
  | none => rfl
  | some n =>
    simp only [Bool.and_eq_true, clipCovers_eq_true]
    rfl

/-- An edge moves the line and the pixel of the counters alone. -/
theorem Timing.advance_eq (t : Timing) (scan : ScanRecord) :
    t.advance scan = { t with line := (t.advance scan).line, pixel := (t.advance scan).pixel } := by
  unfold Timing.advance
  split <;> rfl

theorem Timing.advance_counters (t : Timing) (scan : ScanRecord) :
    ((t.advance scan).line, (t.advance scan).pixel) =
      if t.pixel + 1 < scan.width + scan.hblank then (t.line, t.pixel + 1) else (t.line + 1, 0) := by
  unfold Timing.advance
  split <;> rfl

theorem exec_pixelCompose {s : State} {x y : Nat} (hn : s.nreset = true) (hr : s.timing.region = .active)
    (hahead : s.timing.line < y ∨ (s.timing.line = y ∧ s.timing.pixel ≤ x + 1)) (hx : x < s.live.scan.width)
    (hy : y < s.live.scan.height) (a b : Sample) :
    exec (.pixelCompose x y a b) s = .next ((s.skipTo x y).edge a b) := by
  have hc : (s.nreset && s.timing.ahead x y && x < s.live.scan.width && y < s.live.scan.height) = true := by
    simp [hn, Timing.ahead, hr, hahead, hx, hy]
  exact congrArg _ (if_pos hc)

/-- A list that ends with three elements and holds four ends with four. -/
theorem exists_append_four {α : Type} {l older : List α} {b c d : α} (h : l = older ++ [b, c, d]) (hl : 4 ≤ l.length) :
    ∃ front a, l = front ++ [a, b, c, d] := by
  have hne : older ≠ [] := by
    rintro rfl
    rw [h] at hl
    simp at hl
  obtain ⟨front, a, rfl⟩ := (List.eq_nil_or_concat older).resolve_left hne
  exact ⟨front, a, by simp [h]⟩

/-- The periods that went by before a pixel's own, the end of the line before them where one lies between. -/
def State.wordsGone (s : State) (x y : Nat) : List OutWord :=
  if s.timing.line = y then
    s.compose.pipe.words ++ List.replicate (x + 1 - s.timing.pixel) { data := .black, de := true, hs := false, vs := false }
  else
    (OutPipe.lineEnd false).words ++ List.replicate (x + 1) { data := .black, de := true, hs := false, vs := false }

theorem State.four_le_wordsGone (s : State) (x y : Nat) : 4 ≤ (s.wordsGone x y).length := by
  unfold State.wordsGone
  split <;> simp [OutPipe.words]

/-- The delay line at the pixel holds the last four of them. -/
theorem State.pipeAt_eq {s : State} {x y : Nat}
    (hahead : s.timing.line < y ∨ (s.timing.line = y ∧ s.timing.pixel ≤ x + 1)) {front : List OutWord}
    {a b c d : OutWord} (h : s.wordsGone x y = front ++ [a, b, c, d]) : s.pipeAt x y = ⟨a, b, c, d⟩ := by
  unfold State.pipeAt
  unfold State.wordsGone at h
  rcases hahead with hlt | ⟨heq, -⟩
  · rw [if_neg (by omega)] at h
    exact (if_pos hlt).trans (OutPipe.pushes_eq h)
  · rw [if_pos heq] at h
    exact (if_neg (by omega)).trans (OutPipe.pushes_eq h)

/-- The marks of the period after the pixel's own. -/
theorem State.periodWord_skipTo {s : State} {x y : Nat} (hr : s.timing.region = .active) (hy : y < s.live.scan.height) :
    (s.skipTo x y).periodWord =
      { data := .black, de := decide (x + 1 < s.live.scan.width), hs := decide (s.live.scan.width ≤ x + 1), vs := false } := by
  simp [State.periodWord, State.atActivePixel, State.skipTo, hr, hy]

/-- Settles O39: the edge of the pixel, taken from where `skipTo` puts the counters. -/
theorem pixelComposeDrivesTheOutput : Obligations.PixelComposeDrivesTheOutput := by
  unfold Obligations.PixelComposeDrivesTheOutput
  intro s x y a b hn hr hahead hx hy w pipe word gone
  have hdue := State.sampleDue_skipTo hr hx hy
  have hword := State.periodWord_skipTo (x := x) hr hy
  have hgone : gone = s.wordsGone x y := rfl
  refine ⟨_, exec_pixelCompose hn hr hahead hx hy a b, ?_⟩
  rw [State.edge_of_sampleDue hdue, hword]
  refine ⟨fun older before before2 before3 h => ?_, fun q => ?_, ?_, ?_⟩
  · obtain ⟨front, first, hfour⟩ := exists_append_four (hgone ▸ h) (s.four_le_wordsGone x y)
    show ((s.pipeAt x y).push _).paint w.colour = _
    rw [State.pipeAt_eq hahead hfour]
    rfl
  · have hfold : ((s.live.foldPixel x y w.colour).guards)[q] = s.live.guards[q].map (GuardRecord.folded x y w.colour) := by
      simp [Live.foldPixel]
    refine hfold.trans (congrArg (fun f => s.live.guards[q].map f) (funext fun r => ?_))
    exact GuardRecord.folded_eq x y w.colour r
  · exact Timing.advance_counters (s.skipTo x y).timing s.live.scan
  · have htiming : (s.skipTo x y).timing.advance s.live.scan
        = { s.timing with
            line := ((s.skipTo x y).timing.advance s.live.scan).line
            pixel := ((s.skipTo x y).timing.advance s.live.scan).pixel } := Timing.advance_eq _ _
    exact congrArg (fun t => ({ (s.skipTo x y) with
      timing := t
      compose := { (s.skipTo x y).compose with
        pipe := (s.pipeAt x y).push (word (decide (x + 1 < s.live.scan.width)) (decide (s.live.scan.width ≤ x + 1)))
        sampleA := a, sampleB := b } } : State).composePixel x y a b) htiming

end Sys2Proof.Machine
end

section
/-! The edits of a batch on its working copy (R5, R28, R35, R85, R140), and the order of validation (R30, R86, R87). -/

namespace Sys2Proof.Machine

/-! ### Edits -/

theorem Work.edits_append (w : Work) (index : Nat) (edits : List Edit) (e : Edit) :
    w.edits index (edits ++ [e]) = (w.edits index edits).edit (index + edits.length) e := by
  induction edits generalizing w index with
  | nil => rfl
  | cons a rest ih =>
    rw [List.cons_append, Work.edits, ih, Work.edits, List.length_cons, Nat.add_assoc, Nat.add_comm 1]

/-- The cells of a run within one bank. -/
theorem paletteCell_in_run {bank other : Bank} {first n i : Nat} (hrun : first + n ≤ 256) (hi : i < 256) :
    (paletteCell bank first ≤ paletteCell other i ∧ paletteCell other i < paletteCell bank first + n) ↔
      other = bank ∧ first ≤ i ∧ i < first + n := by
  unfold paletteCell
  constructor
  · intro h
    have hbank : other.val = bank.val := by omega
    exact ⟨Fin.ext hbank, by omega, by omega⟩
  · rintro ⟨rfl, h⟩
    omega

/-- The entries after a COLOURS edit. -/
theorem bankEntry_paletteWrites {store : List (Nat × Colour)} (h : Memory.wf store = true) {bank : Bank} {first : Nat}
    {cs : List Colour} (hrun : first + cs.length ≤ 256) (other : Bank) {i : Nat} (hi : i < 256) :
    bankEntry (paletteWrites store (paletteCell bank first) cs) other i =
      if other = bank ∧ first ≤ i ∧ i < first + cs.length then cs.getD (i - first) .black else bankEntry store other i := by
  have hcells : paletteCell bank first + cs.length ≤ 1024 := by
    unfold paletteCell
    omega
  unfold bankEntry
  rw [paletteRead_writes h _ _ hcells]
  simp only [paletteCell_in_run hrun hi]
  split
  next hrun =>
    obtain ⟨rfl, hle, -⟩ := hrun
    rw [show paletteCell other i - paletteCell other first = i - first by unfold paletteCell; omega]
  next => rfl

theorem Work.edit_signature_guarded {w : Work} {p : Plane} {r : GuardRecord} (h : w.live.guards[p] = some r) (index : Nat)
    (expected : Option (BitVec 32)) (limit : Nat) (action : GuardAction) :
    w.edit index (.signature p expected limit action) =
      { w with live := w.live.setGuard p (some (r.signed expected limit action)) } := by
  simp only [Work.edit, h]

theorem Work.edit_signature_unguarded {w : Work} {p : Plane} (h : w.live.guards[p] = none) (index : Nat)
    (expected : Option (BitVec 32)) (limit : Nat) (action : GuardAction) :
    w.edit index (.signature p expected limit action) =
      { w with unguarded := w.unguarded.or (some (index, p)) } := by
  simp only [Work.edit, h]

/-- Settles O44: one equation for each kind of edit, and the last edit of a batch on the work of those before it. -/
theorem editsOverwriteWhatTheyName : Obligations.EditsOverwriteWhatTheyName := by
  unfold Obligations.EditsOverwriteWhatTheyName
  refine ⟨fun _ => rfl, fun l edits e => ?_, fun w index => ⟨fun _ => rfl, fun bank first cs hrun hwf => ?_,
    fun p expected limit action => ⟨fun r hr => ?_, fun hr => ?_⟩, fun _ => rfl⟩⟩
  · rw [workOf, Work.edits_append, Nat.add_comm 1]
    rfl
  · exact ⟨fun other i hi => bankEntry_paletteWrites hwf hrun other hi, rfl⟩
  · rw [Work.edit_signature_guarded hr]
    rfl
  · rw [Work.edit_signature_unguarded hr]
    cases w.unguarded <;> rfl

/-! ### What validation looks for -/

section
variable {s : State} {l : Live}

theorem State.claimOf_owner_eq_some {r : Resource} {p : Port} :
    (s.claimOf r).owner = some p ↔ s.claimOf r = .held p ∨ s.claimOf r = .revoking p := by
  cases s.claimOf r <;> simp [Claim.owner]

theorem Rect.valid_iff (r : Rect) : r.valid = true ↔ r.x0 ≤ r.x1 ∧ r.y0 ≤ r.y1 := by
  simp [Rect.valid]

theorem badRectPlane_eq_some {e : Edit} {q : Plane} :
    badRectPlane l e = some q ↔
      ∃ x : PlaneEdit, e = .plane x ∧ x.plane = q ∧ x.rect.isSome = true
        ∧ ¬ (l.planes[q].rect.x0 ≤ l.planes[q].rect.x1 ∧ l.planes[q].rect.y0 ≤ l.planes[q].rect.y1) := by
  simp only [← Rect.valid_iff]
  cases e with
  | plane x =>
    simp only [badRectPlane, Edit.plane.injEq]
    constructor
    · intro h
      split at h
      next hbad =>
        cases h
        simp only [Bool.and_eq_true, Bool.not_eq_true'] at hbad
        exact ⟨x, rfl, rfl, hbad.1, Bool.eq_false_iff.1 hbad.2⟩
      next => cases h
    · rintro ⟨_, rfl, rfl, hr, hv⟩
      rw [if_pos]
      simp only [Bool.and_eq_true, Bool.not_eq_true']
      exact ⟨hr, Bool.eq_false_iff.2 hv⟩
  | _ => simp [badRectPlane]

theorem unheldBank_eq_some {q : Plane} {b : Bank} :
    unheldBank s l q = some b ↔
      l.planes[q].enabled = true ∧ l.planes[q].palette = some b
        ∧ ¬ ∃ o, s.planeOwner q = some o ∧ s.bankOwner b = some o := by
  have hheld : ∀ b, ((s.planeOwner q).isSome && s.bankOwner b == s.planeOwner q) = true ↔
      ∃ o, s.planeOwner q = some o ∧ s.bankOwner b = some o := by
    intro b
    cases s.planeOwner q <;> simp
  unfold unheldBank
  split
  next he =>
    cases l.planes[q].palette with
    | none => simp
    | some k =>
      simp only [hheld, Option.some.injEq]
      split
      next ho =>
        constructor
        · intro h
          cases h
        · rintro ⟨-, rfl, hno⟩
          exact absurd ho hno
      next hno =>
        constructor
        · intro h
          cases h
          exact ⟨he, rfl, hno⟩
        · rintro ⟨-, rfl, -⟩
          rfl
  next he => exact iff_of_false (by simp) fun h => he h.1

theorem unheldPlane_eq_some {e : Edit} {q : Plane} :
    unheldPlane s l e = some q ↔ (∃ x : PlaneEdit, e = .plane x ∧ x.plane = q) ∧ ∃ b, unheldBank s l q = some b := by
  cases e with
  | plane x =>
    simp only [unheldPlane, Edit.plane.injEq, Option.isSome_iff_exists]
    constructor
    · intro h
      split at h
      next hb => cases h; exact ⟨⟨x, rfl, rfl⟩, hb⟩
      next => cases h
    · rintro ⟨⟨_, rfl, rfl⟩, hb⟩
      exact if_pos hb
  | _ => simp [unheldPlane]

/-! ### The judgements -/

theorem judgeOwner_eq_pass {p : Port} {edits : List Edit} :
    judgeOwner s p edits = .pass ↔ ∀ e ∈ edits, ∀ r, e.touched = some r → (s.claimOf r).owner = some p := by
  rw [← firstNotHeld_eq_none (i := 1)]
  unfold judgeOwner
  cases firstNotHeld s p 1 edits <;> simp

theorem judgeRect_eq_pass {edits : List Edit} :
    judgeRect l edits = .pass ↔ ∀ e ∈ edits, badRectPlane l e = none := by
  rw [← firstOfLasts_eq_none (i := 1)]
  unfold judgeRect
  cases firstOfLasts (badRectPlane l) 1 edits <;> simp

theorem judgeBank_eq_pass {edits : List Edit} : judgeBank s l edits = .pass ↔ ∀ q, unheldBank s l q = none := by
  constructor
  · exact unheldBank_of_judgeBank
  · intro h
    have hedits : firstOfLasts (unheldPlane s l) 1 edits = none :=
      firstOfLasts_eq_none.2 fun e _ => Option.eq_none_iff_forall_ne_some.2 fun q hq => by
        obtain ⟨-, b, hb⟩ := unheldPlane_eq_some.1 hq
        rw [h q] at hb
        cases hb
    have hplanes : (allPlanes.find? fun p => (unheldBank s l p).isSome) = none :=
      find?_allPlanes_eq_none.2 fun q => by rw [h q]; rfl
    unfold judgeBank
    rw [hedits]
    simp only [hplanes]

theorem judgeGuards_eq_pass {w : Work} : judgeGuards w = .pass ↔ w.live.guardCount ≤ 4 := by
  unfold judgeGuards Config.guardLimit
  split
  next h => simpa using Nat.not_le.2 h
  next h => simpa using Nat.le_of_not_lt h

theorem judgeSigned_eq_pass {w : Work} : judgeSigned w = .pass ↔ w.unguarded = none := by
  unfold judgeSigned
  cases w.unguarded <;> simp

end

theorem Verdict.orElse_of_fail {a : Verdict} {reason : Reason} {index : Nat} {r : Option Resource}
    (h : a = .fail reason index r) (b : Verdict) : a.orElse b = .fail reason index r := by
  rw [h]
  rfl

theorem Verdict.orElse_of_pass {a : Verdict} (h : a = .pass) (b : Verdict) : a.orElse b = b := by
  rw [h]
  rfl

/-- The offending edit of BAD_RECT and BANK_NOT_HELD: of the last edits selected for their planes, the first. -/
theorem firstOfLasts_of_selected {P : Plane → Edit → Prop} {sel : Edit → Option Plane}
    (hsel : ∀ e q, sel e = some q ↔ P q e) {l r : List Edit} {e : Edit} {q : Plane}
    (hlast : P q e ∧ ∀ e' ∈ r, ¬ P q e')
    (hfirst : ∀ u x v k, l = u ++ x :: v → ¬ (P k x ∧ ∀ e' ∈ v ++ e :: r, ¬ P k e')) :
    firstOfLasts sel 1 (l ++ e :: r) = some (l.length + 1, q) := by
  rw [firstOfLasts_split 1 ((hsel e q).2 hlast.1) (fun e' he' => mt (hsel e' q).1 (hlast.2 e' he')) ?_, Nat.add_comm]
  intro u x v k hl hx
  have hlater : ∃ e' ∈ v ++ e :: r, P k e' := Classical.byContradiction fun hno =>
    hfirst u x v k hl ⟨(hsel x k).1 hx, fun e' he' hp => hno ⟨e', he', hp⟩⟩
  obtain ⟨e', he', hp⟩ := hlater
  exact ⟨e', he', (hsel e' k).2 hp⟩

/-- Settles O45: each judgement passes exactly when its reason does not hold, and names the edit of its search. -/
theorem validationTriesTheReasonsInOrder : Obligations.ValidationTriesTheReasonsInOrder := by
  unfold Obligations.ValidationTriesTheReasonsInOrder
  intro s p edits w mine badRect badBank badName lastOf firstLast owned rects banks
  have hmine : ∀ r, (s.claimOf r).owner = some p ↔ mine r := fun r => State.claimOf_owner_eq_some
  have hrect : ∀ e q, badRectPlane w.live e = some q ↔ badRect q e := fun e q => badRectPlane_eq_some
  have hbank : ∀ q b, unheldBank s w.live q = some b ↔ badBank q b := fun q b => unheldBank_eq_some
  have hname : ∀ e q, unheldPlane s w.live e = some q ↔ badName q e := fun e q => by
    rw [unheldPlane_eq_some]
    exact and_congr_right fun _ => exists_congr (hbank q)
  have howned : judgeOwner s p edits = .pass ↔ owned := by
    simp only [judgeOwner_eq_pass, hmine]
    rfl
  have hrects : judgeRect w.live edits = .pass ↔ rects := by
    simp only [judgeRect_eq_pass, Option.eq_none_iff_forall_ne_some, ne_eq, hrect]
    rfl
  have hbanks : judgeBank s w.live edits = .pass ↔ banks := by
    simp only [judgeBank_eq_pass, Option.eq_none_iff_forall_ne_some, ne_eq, hbank]
    rfl
  refine ⟨?_, fun l e r x he hl hx hn => ?_, fun ho l e r q he hf => ?_, fun ho hr l e r q b he hf hb => ?_,
    fun ho hr hb hg i hi => ?_, fun ho hr hb hg i q hu => ?_⟩
  · rw [validate_eq_pass, howned, hrects, hbanks, judgeGuards_eq_pass, judgeSigned_eq_pass]
  · have hj : judgeOwner s p edits = .fail .notOwner (l.length + 1) (some x) := by
      rw [judgeOwner, he, firstNotHeld_split 1 (fun e' he' y hy => (hmine y).2 (hl e' he' y hy)) hx (mt (hmine x).1 hn),
        Nat.add_comm]
    exact Verdict.orElse_of_fail hj _
  · have hj : judgeRect w.live edits = .fail .badRect (l.length + 1) (some (.plane q)) := by
      rw [judgeRect, he, firstOfLasts_of_selected hrect hf.1 hf.2]
    rw [validate, Verdict.orElse_of_pass (howned.2 ho), Verdict.orElse_of_fail hj]
  · have hj : judgeBank s w.live edits = .fail .bankNotHeld (l.length + 1) (some (.bank b)) := by
      rw [judgeBank, he, firstOfLasts_of_selected hname hf.1 hf.2]
      simp only [(hbank q b).2 hb, Option.map_some]
    rw [validate, Verdict.orElse_of_pass (howned.2 ho), Verdict.orElse_of_pass (hrects.2 hr), Verdict.orElse_of_fail hj]
  · have hj : judgeGuards w = .fail .guardFull i none := by
      rw [judgeGuards, Config.guardLimit, if_pos hg, hi, Option.getD_some]
    rw [validate, Verdict.orElse_of_pass (howned.2 ho), Verdict.orElse_of_pass (hrects.2 hr),
      Verdict.orElse_of_pass (hbanks.2 hb), Verdict.orElse_of_fail hj]
  · have hj : judgeSigned w = .fail .notGuarded i (some (.plane q)) := by
      rw [judgeSigned, hu]
    rw [validate, Verdict.orElse_of_pass (howned.2 ho), Verdict.orElse_of_pass (hrects.2 hr),
      Verdict.orElse_of_pass (hbanks.2 hb), Verdict.orElse_of_pass (judgeGuards_eq_pass.2 hg), hj]

end Sys2Proof.Machine
end

section
/-! The window: its scan, the validation of the Applying batch, the countdown (R78, R80, R82 to R95); and the leases (R106,
R107). -/

namespace Sys2Proof.Machine

/-! ### A batch leaves the queue (R91 to R95) -/

theorem State.overdueTimeout_history (s : State) (b : Batch) (k : Port) : (s.overdueTimeout b).history k = s.history k := by
  unfold State.overdueTimeout
  (repeat' split)
  · rw [State.complete_eq]
    split <;> rfl
  · rfl
  · rfl

theorem Batch.sealWaits_iff {b : Batch} : b.sealWaits = true ↔ b.wait = true ∧ b.timedOut = none := by
  simp [Batch.sealWaits]

/-- A batch that leaves, before its port is told. -/
def State.departed (s : State) (field : Byte) (b : Batch) (outcome : BatchOutcome) : State :=
  (s.overdueTimeout b).setHistory b.port (pushHistory (s.history b.port) { number := b.number, outcome, field })

theorem State.departed_eq (s : State) (field : Byte) (b : Batch) (outcome : BatchOutcome) :
    (s.overdueTimeout b).record b.port { number := b.number, outcome, field } = s.departed field b outcome := by
  rw [State.record, State.overdueTimeout_history, State.departed]

theorem State.reportApplied_eq (s : State) (field : Byte) (b : Batch) (clamped : Bool) :
    s.reportApplied field b clamped =
      if b.wait = true ∧ b.timedOut = none then
        (s.departed field b (.applied clamped)).complete b.port .applied (b.acceptance ++ [field, flagByte clamped])
      else (s.departed field b (.applied clamped)).post b.port (batchApplied field b clamped) := by
  simp only [State.reportApplied, State.departed_eq, Batch.sealWaits_iff]

theorem State.reportRejected_eq (s : State) (field : Byte) (b : Batch) (reason : Reason) (index : Nat)
    (r : Option Resource) :
    s.reportRejected field b reason index r =
      if b.wait = true ∧ b.timedOut = none then
        (s.departed field b (.rejected reason index)).complete b.port .rejected
          (b.acceptance ++ [field, reason.code, byteOf index, resourceByte r])
      else (s.departed field b (.rejected reason index)).post b.port (batchRejected field b reason index r) := by
  simp only [State.reportRejected, State.departed_eq, Batch.sealWaits_iff]

/-! ### The scan -/

section
variable {s : State} {w : Window}

theorem State.someApplying_of_queued (h : ∀ x ∈ s.queue, x.state = .queued) : s.someApplying = false := by
  rw [State.someApplying, List.any_eq_false]
  intro x hx
  rw [h x hx]
  decide

theorem exec_windowScanStep (hn : s.nreset = true) (hw : s.window = some w) (hs : w.stage = .scan)
    (ha : s.someApplying = false) :
    exec .windowScanStep s
      = .next
        (match s.queue.find? Batch.unscanned with
          | some b => s.scanBatch w b
          | none => { s with window := some { w with stage := .countdown } }) := by
  have hc : (s.nreset && w.stage == .scan && !s.someApplying) = true := by rw [hn, hs, ha]; rfl
  refine congrArg Host.Outcome.next (?_ : (match s.window with | some w => _ | none => s) = _)
  rw [hw]
  exact if_pos hc

variable {b : Batch}

theorem scanDecision_passOver (h : b.member = false) : scanDecision w b = .passOver := by
  simp [scanDecision, h]

theorem scanDecision_skip (h : b.member = true) (hs : b.port ∈ w.skipped) : scanDecision w b = .skip := by
  simp [scanDecision, h, hs]

theorem scanDecision_skipNotDue (h : b.member = true) (hs : b.port ∉ w.skipped) (hd : b.due = false) :
    scanDecision w b = .skipNotDue := by
  simp [scanDecision, h, hs, hd]

theorem scanDecision_tooLarge (h : b.member = true) (hs : b.port ∉ w.skipped) (hd : b.due = true)
    (hb : w.budget < b.cost) : scanDecision w b = .tooLarge := by
  simp [scanDecision, h, hs, hd, hb]

theorem scanDecision_stop (h : b.member = true) (hs : b.port ∉ w.skipped) (hd : b.due = true)
    (hb : b.cost ≤ w.budget) (hr : w.remaining < b.cost) : scanDecision w b = .stop := by
  simp [scanDecision, h, hs, hd, Nat.not_lt.2 hb, hr]

theorem scanDecision_apply (h : b.member = true) (hs : b.port ∉ w.skipped) (hd : b.due = true)
    (hb : b.cost ≤ w.budget) (hr : b.cost ≤ w.remaining) : scanDecision w b = .apply := by
  simp [scanDecision, h, hs, hd, Nat.not_lt.2 hb, Nat.not_lt.2 hr]

end

/-- Settles O50: the line of Table 5.2 that takes the next batch, and the queue marked at it. -/
theorem windowScanDecidesByItsTable : Obligations.WindowScanDecidesByItsTable := by
  unfold Obligations.WindowScanDecidesByItsTable
  intro s w hn hw hstage hqueued
  have hexec := exec_windowScanStep hn hw hstage (State.someApplying_of_queued hqueued)
  constructor
  · intro hall
    have hnone : s.queue.find? Batch.unscanned = none :=
      List.find?_eq_none.2 fun x hx => by simp [Batch.unscanned, hall x hx]
    rw [hexec, hnone]
  · intro l b r hq hl hb passed due
    have hscanned : ∀ x ∈ l, Batch.unscanned x = false := fun x hx => by rw [Batch.unscanned, hl x hx]; rfl
    have hnext : b.unscanned = true := by rw [Batch.unscanned, hb]; rfl
    have hfind : s.queue.find? Batch.unscanned = some b := by rw [hq, find?_split hscanned hnext]
    have hmark : markScanned s.queue = l ++ { b with scanned := true } :: r := by
      rw [markScanned, hq, modifyFirst_split hscanned hnext]
    have happly : markApplying s.queue = l ++ { b with scanned := true, state := .applying } :: r := by
      rw [markApplying, hq, modifyFirst_split hscanned hnext]
    have hgone : s.queue.eraseP Batch.unscanned = l ++ r := by rw [hq, eraseP_split hscanned hnext]
    have hdue : b.due = due := rfl
    rw [hexec, hfind]
    refine ⟨fun hm => ?_, fun hm hs => ?_, fun hm hs hd => ?_, fun hm hs hd hbudget => ?_, fun hm hs hd hbudget hrem => ?_,
      fun hm hs hd hbudget hrem => ?_⟩
    · simp only [State.scanBatch, scanDecision_passOver hm, hmark, passed]
    · simp only [State.scanBatch, scanDecision_skip hm hs, hmark, passed]
    · simp only [State.scanBatch, scanDecision_skipNotDue hm hs (hdue.trans hd), hmark, passed]
    · simp only [State.scanBatch, scanDecision_tooLarge hm hs (hdue.trans hd) hbudget, hgone, State.reportRejected_eq]
      rfl
    · simp only [State.scanBatch, scanDecision_stop hm hs (hdue.trans hd) hbudget hrem]
    · simp only [State.scanBatch, scanDecision_apply hm hs (hdue.trans hd) hbudget hrem, happly]

/-! ### Validation -/

theorem resourceByte_eq (r : Option Resource) :
    resourceByte r =
      match r with
      | none => 0xFF
      | some (.plane q) => byteOf q.val
      | some (.bank k) => byteOf (0x80 + k.val) := by
  rcases r with _ | r
  · rfl
  · cases r <;> rfl

theorem exec_batchValidation {s : State} {w : Window} {b : Batch} (hn : s.nreset = true) (hw : s.window = some w)
    (hb : s.queue.find? Batch.isApplying = some b) : exec .batchValidation s = .next (s.judged w.field b) := by
  show execBatchValidation s = _
  simp only [execBatchValidation, hw, hb, hn, if_true]

/-- Settles O51: the verdict, and the departure that goes with it. -/
theorem batchValidationAppliesOrRejects : Obligations.BatchValidationAppliesOrRejects := by
  unfold Obligations.BatchValidationAppliesOrRejects
  intro s w l b r hn hw hq hl hb copy carried left
  have hqueued : ∀ x ∈ l, Batch.isApplying x = false := fun x hx => by rw [Batch.isApplying, hl x hx]; rfl
  have happlying : b.isApplying = true := by rw [Batch.isApplying, hb]; rfl
  have hfind : s.queue.find? Batch.isApplying = some b := by rw [hq, find?_split hqueued happlying]
  have hgone : s.queue.eraseP Batch.isApplying = l ++ r := by rw [hq, eraseP_split hqueued happlying]
  have hcarried : ∀ rest, b.acceptance ++ w.field :: rest = carried ++ rest := fun rest => by
    simp [carried, Batch.acceptance]
  have hexec := exec_batchValidation hn hw hfind
  unfold State.judged at hexec
  simp only [hgone] at hexec
  refine ⟨fun hpass => ?_, fun reason index resource hfail => ?_⟩
  · have hverdict : validate s b.port b.edits (workOf s.live b.edits) = .pass := hpass
    rw [hexec, hverdict]
    simp only [State.reportApplied_eq, hcarried]
    rfl
  · have hverdict : validate s b.port b.edits (workOf s.live b.edits) = .fail reason index resource := hfail
    rw [hexec, hverdict]
    simp only [State.reportRejected_eq, hcarried, resourceByte_eq]
    rfl

/-! ### The countdown -/

theorem Batch.countedDown_eq {field : Byte} {b : Batch} (h : b.state = .queued) :
    b.countedDown field =
      if b.member = true ∧ b.wait = true ∧ b.timedOut = none then
        { b with
          member := false, scanned := false, remainingWait := b.remainingWait - 1
          timedOut := if b.remainingWait = 1 then some field else none }
      else { b with member := false, scanned := false } := by
  have hcond : (b.member && b.sealWaits && b.state == .queued) = true ↔
      b.member = true ∧ b.wait = true ∧ b.timedOut = none := by
    simp [Batch.sealWaits, h]
  unfold Batch.countedDown
  simp only [hcond]
  split
  next hc => rw [hc.2.2]
  next => rfl

theorem State.scanOver_iff (s : State) (w : Window) :
    s.scanOver w = true ↔ w.stage = .countdown ∨ (w.stage = .scan ∧ ∀ x ∈ s.queue, x.scanned = true ∨ x.member = false) := by
  simp [State.scanOver]

/-- Settles O52: the row is taken, and counts down each batch of a queue that holds Queued ones only. -/
theorem countdownEndsTheWindow : Obligations.CountdownEndsTheWindow := by
  unfold Obligations.CountdownEndsTheWindow
  intro s w hn hw hqueued hover
  have hc : (s.nreset && s.scanOver w && !s.someApplying) = true := by
    rw [hn, (s.scanOver_iff w).2 hover, State.someApplying_of_queued hqueued]
    rfl
  have hexec : exec .waitCountdown s
      = .next { s with queue := s.queue.map (Batch.countedDown w.field), window := none } := by
    refine congrArg Host.Outcome.next (?_ : (match s.window with | some w => _ | none => s) = _)
    rw [hw]
    exact if_pos hc
  rw [hexec, List.map_congr_left fun b hb => Batch.countedDown_eq (hqueued b hb)]

/-! ### Leases -/

section
variable {s : State} {p : Port}

theorem State.leaseRuns_iff :
    s.leaseRuns p = true ↔ (s.session p).state = .attached ∧ (s.session p).interval ≠ 0 ∧ (s.cpi p).state ≠ .executing := by
  simp [State.leaseRuns, State.isAttached, and_assoc]

theorem State.expiryDue_iff :
    s.expiryDue p = true ↔
      ((s.session p).state = .attached ∧ (s.session p).interval ≠ 0 ∧ (s.cpi p).state ≠ .executing)
        ∧ (s.session p).remaining.toNat ≤ 1 := by
  rw [State.expiryDue, Bool.and_eq_true, State.leaseRuns_iff, decide_eq_true_eq, BitVec.le_def]
  rfl

/-- A tick at one port, by what the port is in a state that agrees at it. -/
theorem State.tickLease_eq {t : State} (hx : t.session p = s.session p) (hc : t.cpi p = s.cpi p) :
    t.tickLease p =
      if ((s.session p).state = .attached ∧ (s.session p).interval ≠ 0 ∧ (s.cpi p).state ≠ .executing)
          ∧ (s.session p).remaining.toNat ≤ 1 then t.beginLapse p .expired
      else if (s.session p).state = .attached ∧ (s.session p).interval ≠ 0 ∧ (s.cpi p).state ≠ .executing then
        t.setSession p { s.session p with remaining := (s.session p).remaining - 1 }
      else t := by
  simp only [State.tickLease, State.expiryDue_iff, State.leaseRuns_iff, hx, hc]

end

theorem exec_leaseTick {s : State} (hn : s.nreset = true) :
    exec .leaseTick s = .next (((s.tickLease 0).tickLease 1).tickLease 2) := congrArg Host.Outcome.next (if_pos hn)

/-- Settles O53: a tick at a port finds the port as the row found it, since the ticks before it were at other ports. -/
theorem leasesTickAndExpire : Obligations.LeasesTickAndExpire := by
  unfold Obligations.LeasesTickAndExpire
  refine ⟨?_, fun s p hn => ⟨fun ha hi hrem hx => ?_, fun h => ?_⟩⟩
  · intro s hn runs ticked
    obtain ⟨hc1, hs1⟩ := State.tickLease_other (s := s) (p := 0) (q := 1) (by decide)
    obtain ⟨hc2, hs2⟩ := State.tickLease_other (s := s) (p := 0) (q := 2) (by decide)
    obtain ⟨hc3, hs3⟩ := State.tickLease_other (s := s.tickLease 0) (p := 1) (q := 2) (by decide)
    have h0 : s.tickLease 0 = ticked s 0 := State.tickLease_eq rfl rfl
    have h1 : (s.tickLease 0).tickLease 1 = ticked (s.tickLease 0) 1 := State.tickLease_eq hs1 hc1
    have h2 : ((s.tickLease 0).tickLease 1).tickLease 2 = ticked ((s.tickLease 0).tickLease 1) 2 :=
      State.tickLease_eq (hs3.trans hs2) (hc3.trans hc2)
    rw [exec_leaseTick hn, h2, h1, h0]
  · have hc : (s.nreset && s.expiryDue p) = true := by
      rw [hn, State.expiryDue_iff.2 ⟨⟨ha, hi, hx⟩, hrem⟩]
      rfl
    exact congrArg Host.Outcome.next (if_pos hc)
  · have hc : ¬ (s.nreset && s.expiryDue p) = true := by
      rw [hn, Bool.true_and, State.expiryDue_iff]
      rintro ⟨⟨ha, hi, hx⟩, hrem⟩
      rcases h with h | h | h | h
      · exact h ha
      · exact hi h
      · omega
      · exact hx h
    exact congrArg Host.Outcome.next (if_neg hc)

end Sys2Proof.Machine
end

section
/-! The comparisons of a Blank Start (R144 to R146): one plane, then all of them in increasing number. -/

namespace Sys2Proof.Machine

/-! ### Notices to a port that may be Detached -/

/-- Port p's Notice Queue after notices of which none is SESSION_ENDED: a Detached port stores none (R152). -/
def State.queueTold (s : State) (p : Port) (notices : List Notice) : NoticeQueue :=
  if (s.session p).state = .detached then s.noticeQueue p else (s.noticeQueue p).takes notices

@[simp] theorem State.queueTold_nil (s : State) (p : Port) : s.queueTold p [] = s.noticeQueue p := ite_self _

/-- Notices to a port whose queue has already taken others. -/
theorem State.queueTold_append {s t : State} {p : Port} {first : List Notice} (hs : t.session p = s.session p)
    (hq : t.noticeQueue p = s.queueTold p first) (second : List Notice) :
    t.queueTold p second = s.queueTold p (first ++ second) := by
  unfold State.queueTold at hq ⊢
  rw [hs, hq, NoticeQueue.takes_append]
  split <;> rfl

theorem State.post_queueTold {n : Notice} (h : n.kind ≠ .sessionEnded) (s : State) (p k : Port) :
    (s.post p n).noticeQueue k = s.queueTold k (if k = p then [n] else []) := by
  rw [State.post_noticeQueue]
  by_cases hk : k = p
  · subst hk
    by_cases hd : (s.session k).state = .detached
    · simp [State.queueTold, hd, h]
    · simp [State.queueTold, hd, NoticeQueue.takes]
  · simp [hk]

theorem State.postSupervisor_queueTold (s : State) (n : Notice) (k : Port) :
    (s.postSupervisor n).noticeQueue k = s.queueTold k (if s.supervisor = some k then [n] else []) := by
  rw [State.postSupervisor_noticeQueue]
  by_cases hs : s.supervisor = some k
  · simp [State.queueTold, hs, State.supervisor_attached hs, NoticeQueue.takes]
  · simp [hs]

theorem State.SameButQueues.supervisor {s t : State} (h : s.SameButQueues t) : t.supervisor = s.supervisor := by
  obtain ⟨v, rfl⟩ := h
  rfl

/-! ### The notices of one comparison (R145, R146) -/

/-- SIGNATURE_LIMIT goes to the owner, and to a supervisor that is another. -/
theorem State.postLimit_queueTold {n : Notice} (h : n.kind ≠ .sessionEnded) (s : State) (owner k : Port) :
    (s.postLimit owner n).noticeQueue k =
      s.queueTold k (if k = owner ∨ s.supervisor = some k then [n] else []) := by
  have hsame := s.sameButQueues_post owner n
  unfold State.postLimit
  simp only [hsame.supervisor]
  split
  next hs =>
    rw [State.post_queueTold h]
    simp only [hs, Option.some.injEq, eq_comm (a := owner), or_self]
  next hs =>
    rw [State.postSupervisor_queueTold, hsame.supervisor,
      State.queueTold_append (hsame.session k) (State.post_queueTold h s owner k)]
    by_cases hk : k = owner
    · subst hk
      simp [hs]
    · simp [hk]

/-- What the comparison of record r of plane q tells port k. -/
def State.comparisonNotices (s : State) (k : Port) (q : Plane) (r : GuardRecord) : List Notice :=
  match s.planeOwner q with
  | none => []
  | some owner =>
    if r.isCompared s.monitor.newScan && !r.agrees then
      (if k = owner ∧ r.runCount = 0 ∧ 0 < r.limit then [signatureMismatch s.timing.field q] else [])
        ++ (if (k = owner ∨ s.supervisor = some k) ∧ r.reachesLimit = true then
          [signatureLimit s.timing.field q owner r] else [])
    else []

theorem State.postComparison_noticeQueue (s : State) (q : Plane) (r : GuardRecord) (k : Port) :
    (s.postComparison q r).noticeQueue k = s.queueTold k (s.comparisonNotices k q r) := by
  have hmismatch : ∀ f p, (signatureMismatch f p).kind ≠ .sessionEnded := fun _ _ => by simp [signatureMismatch, Notice.plain]
  have hlimit : ∀ f p o, (signatureLimit f p o r).kind ≠ .sessionEnded := fun _ _ _ => by simp [signatureLimit, Notice.plain]
  unfold State.postComparison State.comparisonNotices
  cases s.planeOwner q with
  | none => rw [State.queueTold_nil]
  | some owner =>
    dsimp only
    split
    · have hfirst : ∀ t, t = (if r.runCount = 0 ∧ 0 < r.limit then s.post owner (signatureMismatch s.timing.field q) else s) →
          s.SameButQueues t ∧ t.noticeQueue k = s.queueTold k
            (if k = owner ∧ r.runCount = 0 ∧ 0 < r.limit then [signatureMismatch s.timing.field q] else []) := by
        rintro _ rfl
        split
        next h =>
          refine ⟨s.sameButQueues_post _ _, ?_⟩
          rw [State.post_queueTold (hmismatch _ _)]
          simp [h]
        next h =>
          refine ⟨.refl s, ?_⟩
          rw [if_neg fun hc => h hc.2, State.queueTold_nil]
      obtain ⟨hsame, hqueue⟩ := hfirst _ rfl
      split
      next h =>
        rw [State.postLimit_queueTold (hlimit _ _ _), State.queueTold_append (hsame.session k) hqueue, hsame.supervisor,
          hsame.timing]
        simp only [h, and_true]
      next h => simp only [hqueue, h, and_false, Bool.false_eq_true, if_false, List.append_nil]
    · rw [State.queueTold_nil]

/-! ### One plane -/

/-- What the comparison of plane q tells port k. -/
def State.comparedNotices (s : State) (k : Port) (q : Plane) : List Notice :=
  (s.live.guards[q]).elim [] (s.comparisonNotices k q)

theorem State.comparePlane_noticeQueue (s : State) (q : Plane) (k : Port) :
    (s.comparePlane q).noticeQueue k = s.queueTold k (s.comparedNotices k q) := by
  unfold State.comparePlane State.comparedNotices
  cases s.live.guards[q] with
  | none => exact (s.queueTold_nil k).symm
  | some r => exact State.postComparison_noticeQueue _ q r k

theorem State.comparePlane_guards (s : State) (q k : Plane) :
    (s.comparePlane q).live.guards[k] =
      if k = q then s.live.guards[q].map (GuardRecord.judged · s.monitor.newScan) else s.live.guards[k] := by
  unfold State.comparePlane
  cases hg : s.live.guards[q] with
  | none =>
    dsimp only
    split
    next hk => rw [hk, hg]; rfl
    next => rfl
  | some r =>
    obtain ⟨v, hv⟩ := State.sameButQueues_postComparison
      { s with live := s.live.setGuard q (some (r.judged s.monitor.newScan)) } q r
    dsimp only
    rw [hv]
    simp only [Live.setGuard, Fin.getElem_fin, Vector.getElem_set, Fin.ext_iff, eq_comm, Option.map_some]

/-! ### All planes -/

/-- The comparisons of a list of planes that names each once. -/
theorem State.foldl_comparePlane {planes : List Plane} (hplanes : planes.Nodup) (s : State) :
    (∀ k : Plane, (planes.foldl State.comparePlane s).live.guards[k] =
      if k ∈ planes then s.live.guards[k].map (GuardRecord.judged · s.monitor.newScan) else s.live.guards[k])
    ∧ ∀ p : Port, (planes.foldl State.comparePlane s).noticeQueue p =
        s.queueTold p (planes.flatMap (s.comparedNotices p)) := by
  induction planes generalizing s with
  | nil => exact ⟨fun k => by simp, fun p => by simp⟩
  | cons q rest ih =>
    obtain ⟨hq, hrest⟩ := List.nodup_cons.1 hplanes
    obtain ⟨hguards, hqueue⟩ := ih hrest (s.comparePlane q)
    have hstep := s.comparePlane_guards q
    have hnotices := s.comparePlane_noticeQueue q
    obtain ⟨g, v, hframe⟩ := s.comparePlane_frame q
    rw [List.foldl_cons]
    refine ⟨fun k => ?_, fun p => ?_⟩
    · have hnew : (s.comparePlane q).monitor = s.monitor := by rw [hframe]
      rw [hguards, hnew, hstep]
      by_cases hk : k = q
      · subst hk
        simp [hq]
      · simp [hk]
    · have hsame : ∀ k ∈ rest, (s.comparePlane q).comparedNotices p k = s.comparedNotices p k := fun k hk => by
        have hne : k ≠ q := fun h => hq (h ▸ hk)
        unfold State.comparedNotices
        rw [hstep, if_neg hne, hframe]
        rfl
      have hsession : (s.comparePlane q).session p = s.session p := by
        rw [hframe]
        rfl
      have hflat : rest.flatMap ((s.comparePlane q).comparedNotices p) = rest.flatMap (s.comparedNotices p) := by
        rw [List.flatMap_def, List.flatMap_def, List.map_congr_left hsame]
      rw [hqueue, hflat, State.queueTold_append hsession (hnotices p), List.flatMap_cons]

theorem exec_signatureCompare {s : State} (hn : s.nreset = true) (hd : s.monitor.compareDue = true) :
    exec .signatureCompare s =
      .next { s.compared with monitor := { s.compared.monitor with compareDue := false } } := by
  show execSignatureCompare s = _
  simp only [execSignatureCompare, State.compared, hn, hd, Bool.and_self, if_true]

theorem nodup_allPlanes : allPlanes.Nodup := by decide

theorem State.compared_guards (s : State) (q : Plane) :
    s.compared.live.guards[q] = s.live.guards[q].map (GuardRecord.judged · s.monitor.newScan) := by
  obtain ⟨hguards, -⟩ := s.foldl_comparePlane nodup_allPlanes
  rw [State.compared, hguards, if_pos (mem_allPlanes q)]

theorem State.compared_noticeQueue (s : State) (p : Port) :
    s.compared.noticeQueue p = s.queueTold p (allPlanes.flatMap (s.comparedNotices p)) := by
  obtain ⟨-, hqueue⟩ := s.foldl_comparePlane nodup_allPlanes
  rw [State.compared, hqueue]

/-- SIGNATURE_COMPARE while a comparison is due: every record judged, every notice of the planes in increasing number. -/
theorem exec_signatureCompare_judges {s : State} (hn : s.nreset = true) (hd : s.monitor.compareDue = true) :
    ∃ t, exec .signatureCompare s = .next t
      ∧ (∀ q : Plane, t.live.guards[q] = s.live.guards[q].map (GuardRecord.judged · s.monitor.newScan))
      ∧ (∀ p : Port, t.noticeQueue p = s.queueTold p (allPlanes.flatMap (s.comparedNotices p)))
      ∧ t = { s with
          notices := t.notices, monitor := { s.monitor with compareDue := false }
          live := { s.live with guards := t.live.guards } } := by
  have hexec := exec_signatureCompare hn hd
  have hguards := s.compared_guards
  have hqueue := s.compared_noticeQueue
  obtain ⟨g, v, hframe⟩ := s.compared_frame
  generalize s.compared = t at hexec hguards hqueue hframe
  exact ⟨_, hexec, hguards, hqueue, by rw [hframe]⟩

/-! ### One record -/

section
variable {r : GuardRecord} {n : SigNote}

theorem GuardRecord.ended_of_enabled (hn : r.note = some n) (he : n.enabled = true) :
    r.ended = { r with lastSignature := some n.signature } := by
  simp only [GuardRecord.ended, hn, he, if_true]

theorem GuardRecord.ended_of_not_enabled (h : r.note = none ∨ ∃ n, r.note = some n ∧ n.enabled = false) : r.ended = r := by
  rcases h with h | ⟨n, h, he⟩
  · simp only [GuardRecord.ended, h]
  · simp only [GuardRecord.ended, h, he, Bool.false_eq_true, if_false]

theorem GuardRecord.isCompared_iff {first : Bool} :
    r.isCompared first = true ↔
      ∃ n, r.note = some n ∧ n.enabled = true ∧ (∃ v, r.latched = some v) ∧ r.changed = false ∧ first = false := by
  cases h : r.note <;> simp [GuardRecord.isCompared, h, Option.isSome_iff_exists, and_assoc]

theorem GuardRecord.reachesLimit_iff : r.reachesLimit = true ↔ r.runCount + 1 = r.limit := by
  simp only [GuardRecord.reachesLimit, Bool.and_eq_true, decide_eq_true_eq, beq_iff_eq]
  omega

theorem GuardRecord.reachesLimit_eq : r.reachesLimit = decide (r.runCount + 1 = r.limit) := by
  rw [Bool.eq_iff_iff, GuardRecord.reachesLimit_iff, decide_eq_true_eq]

theorem GuardRecord.agrees_iff (hn : r.note = some n) (he : n.enabled = true) {v : BitVec 32} (hl : r.latched = some v) :
    r.agrees = true ↔ n.signature = v := by
  simp [GuardRecord.agrees, GuardRecord.ended_of_enabled hn he, hl]

theorem GuardRecord.differs_iff {first : Bool} :
    (r.isCompared first && !r.agrees) = true ↔
      ∃ n v, r.note = some n ∧ r.latched = some v ∧ n.enabled = true ∧ r.changed = false ∧ first = false
        ∧ n.signature ≠ v := by
  rw [Bool.and_eq_true, GuardRecord.isCompared_iff, Bool.not_eq_true']
  constructor
  · rintro ⟨⟨n, hnote, he, ⟨v, hv⟩, hc, hnew⟩, ha⟩
    exact ⟨n, v, hnote, hv, he, hc, hnew, fun h =>
      Bool.eq_false_iff.1 ha ((GuardRecord.agrees_iff hnote he hv).2 h)⟩
  · rintro ⟨n, v, hnote, hv, he, hc, hnew, hne⟩
    exact ⟨⟨n, hnote, he, ⟨v, hv⟩, hc, hnew⟩,
      Bool.eq_false_iff.2 (mt (GuardRecord.agrees_iff hnote he hv).1 hne)⟩

theorem GuardRecord.judged_of_not_compared {first : Bool} (h : r.isCompared first = false) :
    r.judged first = { r.ended with lastResult := .notCompared } := if_neg (Bool.eq_false_iff.1 h)

theorem GuardRecord.judged_of_match {first : Bool} (h : r.isCompared first = true) (ha : r.agrees = true) :
    r.judged first = { r.ended with lastResult := .isMatch, runCount := 0 } := by
  simp only [GuardRecord.judged, h, ha, if_true]

theorem GuardRecord.judged_of_mismatch {first : Bool} (h : r.isCompared first = true) (ha : r.agrees = false) :
    r.judged first =
      { r.ended with
        lastResult := .mismatch
        runCount := if r.runCount < r.limit then r.runCount + 1 else r.runCount
        held := r.held || (r.reachesLimit && r.action == .substitute) } := by
  simp only [GuardRecord.judged, h, ha, if_true, Bool.false_eq_true, if_false]

end

/-- Settles O47: the records by `judged`, the queues by the notices of the planes one after the other. -/
theorem signatureComparisonJudgesAndPosts : Obligations.SignatureComparisonJudgesAndPosts := by
  unfold Obligations.SignatureComparisonJudgesAndPosts
  constructor
  · intro s hn hd
    obtain ⟨t, ht, hguards, -, hframe⟩ := exec_signatureCompare_judges hn hd
    refine ⟨t, ht, fun q hq => ?_, fun q r hr => ⟨fun n hnote he => ?_, fun h => ?_⟩, hframe⟩
    · rw [hguards, hq, Option.map_none]
    · have hguard : t.live.guards[q] = some (r.judged s.monitor.newScan) := by rw [hguards, hr, Option.map_some]
      have hended := GuardRecord.ended_of_enabled hnote he
      intro ended
      refine ⟨fun hnot => ?_, fun v hv hc hnew => ⟨fun heq => ?_, fun hne => ?_⟩⟩
      · have hcompared : r.isCompared s.monitor.newScan = false := by
          rw [Bool.eq_false_iff, ne_eq, GuardRecord.isCompared_iff]
          rintro ⟨-, -, -, ⟨v, hv⟩, hc, hnew⟩
          rcases hnot with h | h | h
          · rw [hv] at h; cases h
          · rw [hc] at h; cases h
          · rw [hnew] at h; cases h
        refine hguard.trans ?_
        rw [GuardRecord.judged_of_not_compared hcompared, hended]
      · have hcompared := GuardRecord.isCompared_iff.2 ⟨n, hnote, he, ⟨v, hv⟩, hc, hnew⟩
        refine hguard.trans ?_
        rw [GuardRecord.judged_of_match hcompared ((GuardRecord.agrees_iff hnote he hv).2 heq), hended]
      · have hcompared := GuardRecord.isCompared_iff.2 ⟨n, hnote, he, ⟨v, hv⟩, hc, hnew⟩
        have hdiffers : r.agrees = false := Bool.eq_false_iff.2 (mt (GuardRecord.agrees_iff hnote he hv).1 hne)
        refine hguard.trans ?_
        rw [GuardRecord.judged_of_mismatch hcompared hdiffers, hended, GuardRecord.reachesLimit_eq]
    · have hcompared : r.isCompared s.monitor.newScan = false := by
        rw [Bool.eq_false_iff, ne_eq, GuardRecord.isCompared_iff]
        rintro ⟨m, hm, hen, -⟩
        rcases h with h | ⟨n, h, he⟩
        · rw [hm] at h; cases h
        · rw [hm] at h; cases h
          rw [hen] at he; cases he
      rw [hguards, hr, Option.map_some, GuardRecord.judged_of_not_compared hcompared, GuardRecord.ended_of_not_enabled h]
  · intro s t hn hd ht posts p
    obtain ⟨u, hu, -, hqueue, -⟩ := exec_signatureCompare_judges hn hd
    obtain rfl := Host.Outcome.next.inj (ht.symm.trans hu)
    have hposts : ∀ q, s.comparedNotices p q = posts p q := fun q => by
      show _ = (match s.live.guards[q], s.planeOwner q with
        | some r, some owner =>
          match r.note, r.latched with
          | some n, some v =>
            if n.enabled = true ∧ r.changed = false ∧ s.monitor.newScan = false ∧ n.signature ≠ v then
              (if p = owner ∧ r.runCount = 0 ∧ 0 < r.limit then
                [{ Notice.plain .signatureMismatch s.timing.field with resource := some (.plane q), d0 := 1 }]
              else [])
              ++ (if (p = owner ∨ s.supervisor = some p) ∧ r.runCount + 1 = r.limit then
                [{ Notice.plain .signatureLimit s.timing.field with
                    subject := some owner, resource := some (.plane q), d0 := r.action.code, d1 := byteOf r.limit }]
              else [])
            else []
          | _, _ => []
        | _, _ => [])
      unfold State.comparedNotices
      cases s.live.guards[q] with
      | none => rfl
      | some r =>
        rw [Option.elim_some, State.comparisonNotices]
        cases s.planeOwner q with
        | none => rfl
        | some owner =>
          dsimp only
          cases hnote : r.note with
          | none => rw [if_neg (mt GuardRecord.differs_iff.1 (by simp [hnote]))]
          | some n =>
            cases hv : r.latched with
            | none => rw [if_neg (mt GuardRecord.differs_iff.1 (by simp [hv]))]
            | some v =>
              have hdiffers : (r.isCompared s.monitor.newScan && !r.agrees) = true ↔ n.enabled = true ∧ r.changed = false
                  ∧ s.monitor.newScan = false ∧ n.signature ≠ v := by
                rw [GuardRecord.differs_iff]
                simp [hnote, hv]
              simp only [hdiffers, GuardRecord.reachesLimit_iff]
              rfl
    rw [hqueue, show s.comparedNotices p = posts p from funext hposts, State.queueTold]

end Sys2Proof.Machine
end

section
/-! Stage (a) of a window (R112, R113): the lapses of the Lapse Set, in increasing port number. -/

namespace Sys2Proof.Machine

theorem State.supervisor_iff {s : State} {k : Port} :
    s.supervisor = some k ↔ s.strapped = some k ∧ (s.session k).state = .attached := by
  unfold State.supervisor
  cases h : s.strapped with
  | none => simp
  | some p =>
    by_cases ha : s.isAttached p = true
    · rw [State.isAttached, beq_iff_eq] at ha
      simp only [State.isAttached, ha, beq_self_eq_true, if_true, Option.some.injEq]
      exact ⟨fun hk => ⟨hk, hk ▸ ha⟩, And.left⟩
    · have hne : (s.session p).state ≠ .attached := by simpa [State.isAttached] using ha
      simp only [ha, Bool.false_eq_true, if_false, Option.some.injEq, reduceCtorEq, false_iff]
      rintro ⟨rfl, hk⟩
      exact hne hk

/-! ### The end of one session -/

/-- The port's entry after its lapse (R113). -/
def Session.lapseEnded (x : Session) : Session := { x with state := .detached, inLapseSet := false }

/-- A supervisor whose session has ended is none. -/
theorem State.setSession_supervisor_iff (s : State) (p k : Port) :
    (s.setSession p (s.session p).lapseEnded).supervisor = some k ↔ s.supervisor = some k ∧ k ≠ p := by
  have hstrap : (s.setSession p (s.session p).lapseEnded).strapped = s.strapped := rfl
  rw [State.supervisor_iff, State.supervisor_iff, hstrap, State.setSession_session]
  by_cases hk : k = p
  · simp [hk, Session.lapseEnded]
  · simp [hk]

/-- The queue that holds the port's SESSION_ENDED alone (R154). -/
def NoticeQueue.ended (field : Byte) (p : Port) (x : Session) : NoticeQueue :=
  { records := [sessionEnded field p x], dropped := 0 }

theorem State.lapseSession_supervisor_iff (s : State) (p : Port) (field : Byte) (k : Port) :
    (s.lapseSession p field).supervisor = some k ↔ s.supervisor = some k ∧ k ≠ p := by
  rw [(s.sameButQueues_lapseSession p field).supervisor]
  exact s.setSession_supervisor_iff p k

theorem State.lapseSession_noticeQueue (s : State) (p : Port) (field : Byte) (k : Port) :
    (s.lapseSession p field).noticeQueue k =
      if k = p then .ended field p (s.session p)
      else if s.supervisor = some k then (s.noticeQueue k).take (portLapsed field p (s.session p))
      else s.noticeQueue k := by
  have hposted : ∀ u, u = ((s.setSession p (s.session p).lapseEnded).setNotices p .empty).post p
        (sessionEnded field p (s.session p)) →
      u.supervisor = (s.setSession p (s.session p).lapseEnded).supervisor
      ∧ u.noticeQueue k = if k = p then .ended field p (s.session p) else s.noticeQueue k := by
    rintro _ rfl
    refine ⟨((State.sameButQueues_setNotices _ p .empty).trans (State.sameButQueues_post _ p _)).supervisor, ?_⟩
    rw [State.post_noticeQueue]
    by_cases hk : k = p
    · subst hk
      simp [NoticeQueue.ended, NoticeQueue.empty, NoticeQueue.take, Config.noticeSize, sessionEnded, Notice.plain]
    · simp [hk]
  obtain ⟨hsupervisor, hqueue⟩ := hposted _ rfl
  have hiff := hsupervisor ▸ s.setSession_supervisor_iff p
  have hnone : ¬ _ := fun h => ((hiff p).1 h).2 rfl
  unfold State.lapseSession
  dsimp only
  rw [Session.lapseEnded] at hnone hqueue hiff
  rw [if_neg hnone, State.postSupervisor_noticeQueue, hqueue]
  simp only [hiff]
  by_cases hk : k = p
  · simp [hk]
  · simp [hk]

/-! ### The lapse of one port -/

section
variable {s : State} {p : Port} (hl : (s.session p).inLapseSet = true) (field : Byte)
include hl

theorem State.completeLapse_of_mem : s.completeLapse field p = (s.lapseClaims p).lapseSession p field := if_pos hl

theorem State.completeLapse_live : (s.completeLapse field p).live = (s.lapseClaims p).live := by
  obtain ⟨v, hv⟩ := (s.lapseClaims p).sameButQueues_lapseSession p field
  rw [State.completeLapse_of_mem hl, hv]
  simp only [State.setSession]

theorem State.completeLapse_claimOf (r : Resource) : (s.completeLapse field p).claimOf r = (s.claimOf r).without p := by
  obtain ⟨v, hv⟩ := (s.lapseClaims p).sameButQueues_lapseSession p field
  rw [State.completeLapse_of_mem hl, hv, ← State.lapseClaims_claimOf]
  cases r <;> simp only [State.setSession, State.claimOf]

theorem State.completeLapse_session (k : Port) :
    (s.completeLapse field p).session k = if k = p then (s.session p).lapseEnded else s.session k := by
  have hsame : (s.lapseClaims p).session = s.session := by
    unfold State.lapseClaims
    rfl
  rw [State.completeLapse_of_mem hl, State.lapseSession_session, hsame, Session.lapseEnded]

theorem State.completeLapse_supervisor_iff (k : Port) :
    (s.completeLapse field p).supervisor = some k ↔ s.supervisor = some k ∧ k ≠ p := by
  have hsame : (s.lapseClaims p).supervisor = s.supervisor := by
    unfold State.lapseClaims
    rfl
  rw [State.completeLapse_of_mem hl, State.lapseSession_supervisor_iff, hsame]

theorem State.completeLapse_noticeQueue (k : Port) :
    (s.completeLapse field p).noticeQueue k =
      if k = p then .ended field p (s.session p)
      else if s.supervisor = some k then (s.noticeQueue k).take (portLapsed field p (s.session p))
      else s.noticeQueue k := by
  have hsame : (s.lapseClaims p).supervisor = s.supervisor ∧ (s.lapseClaims p).session = s.session
      ∧ (s.lapseClaims p).noticeQueue = s.noticeQueue := by
    unfold State.lapseClaims
    exact ⟨rfl, rfl, rfl⟩
  obtain ⟨hsupervisor, hsession, hqueue⟩ := hsame
  rw [State.completeLapse_of_mem hl, State.lapseSession_noticeQueue, hsupervisor, hsession, hqueue]

end

theorem State.completeLapse_of_not_mem {s : State} {p : Port} (hl : (s.session p).inLapseSet = false) (field : Byte) :
    s.completeLapse field p = s := if_neg (Bool.eq_false_iff.1 hl)

/-! ### The lapses of a list of ports -/

/-- The port stands in the list and in the Lapse Set. -/
def State.lapsesIn (s : State) (ports : List Port) (p : Port) : Bool := decide (p ∈ ports) && (s.session p).inLapseSet

/-- A claim whose owner's lapse is completed. -/
def State.endsClaim (s : State) (ports : List Port) (owner : Option Port) : Bool := owner.any (s.lapsesIn ports)

/-- Port k's Notice Queue after the lapses of the ports (R113, R154). -/
def State.lapseQueue (s : State) (field : Byte) (ports : List Port) (k : Port) : NoticeQueue :=
  if s.lapsesIn ports k then .ended field k (s.session k)
  else if s.supervisor = some k then
    (s.noticeQueue k).takes
      ((ports.filter fun p => (s.session p).inLapseSet).map fun p => portLapsed field p (s.session p))
  else s.noticeQueue k

/-- What the lapses of the ports make of a state. -/
structure State.Lapsed (s : State) (field : Byte) (ports : List Port) (t : State) : Prop where
  planes (q : Plane) : t.live.planes[q] =
    if s.endsClaim ports (s.planeOwner q) then { s.live.planes[q] with enabled := false } else s.live.planes[q]
  guards (q : Plane) : t.live.guards[q] =
    if s.endsClaim ports (s.planeOwner q) then s.live.guards[q].map GuardRecord.disarm else s.live.guards[q]
  claims (r : Resource) : t.claimOf r = if s.endsClaim ports (s.claimOf r).owner then .free else s.claimOf r
  sessions (k : Port) : t.session k = if s.lapsesIn ports k then (s.session k).lapseEnded else s.session k
  queues (k : Port) : t.noticeQueue k = s.lapseQueue field ports k

theorem State.lapsed_nil (s : State) (field : Byte) : s.Lapsed field [] s := by
  have hnone : s.lapsesIn [] = fun _ => false := by
    funext p
    simp [State.lapsesIn]
  have hends : ∀ o, s.endsClaim [] o = false := fun o => by
    rw [State.endsClaim, hnone]
    cases o <;> rfl
  refine ⟨fun q => ?_, fun q => ?_, fun r => ?_, fun k => ?_, fun k => ?_⟩
  · rw [hends, if_neg Bool.false_ne_true]
  · rw [hends, if_neg Bool.false_ne_true]
  · rw [hends, if_neg Bool.false_ne_true]
  · rw [hnone, if_neg Bool.false_ne_true]
  · simp [State.lapseQueue, hnone, NoticeQueue.takes]

/-! #### One port more -/

section
variable {s t : State} {p : Port} {rest : List Port} {field : Byte}

theorem State.lapsesIn_cons_of_not_mem (hl : (s.session p).inLapseSet = false) :
    s.lapsesIn (p :: rest) = s.lapsesIn rest := by
  funext k
  by_cases hk : k = p
  · subst hk
    simp [State.lapsesIn, hl]
  · simp [State.lapsesIn, hk]

/-- A port outside the Lapse Set changes nothing. -/
theorem State.Lapsed.cons_of_not_mem (h : s.Lapsed field rest t) (hl : (s.session p).inLapseSet = false) :
    s.Lapsed field (p :: rest) t := by
  have hin := State.lapsesIn_cons_of_not_mem (rest := rest) hl
  have hends : s.endsClaim (p :: rest) = s.endsClaim rest := by
    funext o
    rw [State.endsClaim, State.endsClaim, hin]
  have hqueue : s.lapseQueue field (p :: rest) = s.lapseQueue field rest := by
    funext k
    simp only [State.lapseQueue, hin, List.filter_cons, hl, Bool.false_eq_true, if_false]
  exact ⟨hends ▸ h.planes, hends ▸ h.guards, hends ▸ h.claims, hin ▸ h.sessions, hqueue ▸ h.queues⟩

variable (hl : (s.session p).inLapseSet = true) (hp : p ∉ rest)
include hl hp

/-- After the lapse of p, the ports that follow lapse as before, and p no more. -/
theorem State.completeLapse_lapsesIn (k : Port) :
    (s.completeLapse field p).lapsesIn rest k = (s.lapsesIn (p :: rest) k && !decide (k = p)) := by
  unfold State.lapsesIn
  rw [State.completeLapse_session hl]
  by_cases hk : k = p
  · subst hk
    simp [hp]
  · simp [hk]

/-- A value that changes when its owner's lapse is completed changes once. -/
theorem State.endsClaim_cons {α : Type} (g : α → α) {v w x : α} {owner : Option Port}
    (hw : w = if owner = some p then g v else v)
    (hx : x = if (s.completeLapse field p).endsClaim rest (if owner = some p then none else owner) then g w else w) :
    x = if s.endsClaim (p :: rest) owner then g v else v := by
  subst hw hx
  cases owner with
  | none => simp [State.endsClaim]
  | some o =>
    by_cases ho : o = p
    · subst ho
      simp [State.endsClaim, State.lapsesIn, hl]
    · simp only [State.endsClaim, Option.some.injEq, ho, if_false, Option.any_some,
        State.completeLapse_lapsesIn hl hp, decide_false, Bool.not_false, Bool.and_true] <;> rfl

theorem State.completeLapse_lapseQueue (k : Port) :
    (s.completeLapse field p).lapseQueue field rest k = s.lapseQueue field (p :: rest) k := by
  have hothers : ∀ q ∈ rest, (s.completeLapse field p).session q = s.session q := fun q hq => by
    have hne : q ≠ p := fun h => hp (h ▸ hq)
    rw [State.completeLapse_session hl, if_neg hne]
  have hnotices : ((rest.filter fun q => ((s.completeLapse field p).session q).inLapseSet).map fun q =>
        portLapsed field q ((s.completeLapse field p).session q)) =
      (rest.filter fun q => (s.session q).inLapseSet).map fun q => portLapsed field q (s.session q) := by
    rw [List.filter_congr fun q hq => by rw [hothers q hq]]
    exact List.map_congr_left fun q hq => by rw [hothers q (List.mem_filter.1 hq).1]
  unfold State.lapseQueue
  rw [hnotices]
  simp only [State.completeLapse_lapsesIn hl hp, State.completeLapse_supervisor_iff hl,
    State.completeLapse_noticeQueue hl, State.completeLapse_session hl]
  by_cases hk : k = p
  · subst hk
    simp [State.lapsesIn, hl]
  · simp only [hk, decide_false, Bool.not_false, Bool.and_true, ne_eq, not_false_eq_true, and_true, if_false,
      List.filter_cons, hl, if_true, List.map_cons, NoticeQueue.takes, List.foldl_cons]
    split
    · rfl
    · split <;> rfl

theorem State.Lapsed.cons_of_mem (h : (s.completeLapse field p).Lapsed field rest t) : s.Lapsed field (p :: rest) t := by
  have howner : ∀ r, ((s.completeLapse field p).claimOf r).owner =
      if (s.claimOf r).owner = some p then none else (s.claimOf r).owner := fun r => by
    rw [State.completeLapse_claimOf hl, Claim.owner_without]
  have hplane : ∀ q, (s.completeLapse field p).planeOwner q =
      if s.planeOwner q = some p then none else s.planeOwner q := fun q => howner (.plane q)
  refine ⟨fun q => ?_, fun q => ?_, fun r => ?_, fun k => ?_, fun k => ?_⟩
  · refine State.endsClaim_cons hl hp (fun r : PlaneRecord => { r with enabled := false }) ?_
      (hplane q ▸ h.planes q)
    rw [State.completeLapse_live hl, State.lapseClaims_planes]
  · refine State.endsClaim_cons hl hp (fun r : Option GuardRecord => r.map GuardRecord.disarm) ?_
      (hplane q ▸ h.guards q)
    rw [State.completeLapse_live hl, State.lapseClaims_guards]
  · exact State.endsClaim_cons hl hp (fun _ => Claim.free) (State.completeLapse_claimOf hl field r)
      (howner r ▸ h.claims r)
  · rw [h.sessions, State.completeLapse_lapsesIn hl hp, State.completeLapse_session hl]
    by_cases hk : k = p
    · subst hk
      simp [State.lapsesIn, hl]
    · simp [hk]
  · rw [h.queues, State.completeLapse_lapseQueue hl hp]

end

theorem State.foldl_completeLapse {ports : List Port} (hports : ports.Nodup) (s : State) (field : Byte) :
    s.Lapsed field ports (ports.foldl (fun s p => s.completeLapse field p) s) := by
  induction ports generalizing s with
  | nil => exact s.lapsed_nil field
  | cons p rest ih =>
    obtain ⟨hp, hrest⟩ := List.nodup_cons.1 hports
    have hnext := ih hrest (s.completeLapse field p)
    rw [List.foldl_cons]
    cases hl : (s.session p).inLapseSet with
    | false =>
      rw [State.completeLapse_of_not_mem hl] at hnext ⊢
      exact hnext.cons_of_not_mem hl
    | true => exact hnext.cons_of_mem hl hp

theorem State.lapsed_lapsesCompleted (s : State) (field : Byte) : s.Lapsed field allPorts (s.lapsesCompleted field) :=
  s.foldl_completeLapse (by decide) field

theorem exec_stageALapses {s : State} {w : Window} (hn : s.nreset = true) (hw : s.window = some w)
    (hstage : w.stage = .lapses) :
    exec .stageALapses s = .next { s.lapsesCompleted w.field with window := some { w with stage := .revocations } } := by
  show execStageALapses s = _
  simp only [execStageALapses, State.lapsesCompleted, hn, hw, hstage, Bool.true_and, beq_self_eq_true, if_true]

theorem State.lapsesIn_allPorts (s : State) (p : Port) : s.lapsesIn allPorts p = (s.session p).inLapseSet := by
  have hmem : p ∈ allPorts := (by decide : ∀ p : Port, p ∈ allPorts) p
  simp only [State.lapsesIn, hmem, decide_true, Bool.true_and]

/-- Settles O48: the lapses of all ports by `foldl_completeLapse`, the rest of the state by their frame. -/
theorem stageACompletesEveryLapse : Obligations.StageACompletesEveryLapse := by
  unfold Obligations.StageACompletesEveryLapse
  intro s w hn hw hstage lapsed ended
  have hexec := exec_stageALapses hn hw hstage
  have hlapsed := s.lapsed_lapsesCompleted w.field
  obtain ⟨pl, g, pc, bc, x, v, hframe⟩ := s.lapsesCompleted_frame w.field
  generalize s.lapsesCompleted w.field = t at hexec hlapsed hframe
  have hends : ∀ o, s.endsClaim allPorts o = ended o := fun o => by
    cases o with
    | none => rfl
    | some p => exact s.lapsesIn_allPorts p
  obtain ⟨hplanes, hguards, hclaims, hsessions, hqueues⟩ := hlapsed
  simp only [hends] at hplanes hguards hclaims
  simp only [State.lapseQueue, s.lapsesIn_allPorts] at hsessions hqueues
  exact ⟨_, hexec, fun q => ⟨hplanes q, hguards q, hclaims (.plane q)⟩, fun b => hclaims (.bank b),
    fun p => ⟨hsessions p, hqueues p⟩, by rw [hframe]⟩

end Sys2Proof.Machine
end

section
/-! Stage (b) of a window (R132 to R134): the revocations of the planes, then of the banks. -/

namespace Sys2Proof.Machine

def Claim.isRevoking : Claim → Bool
  | .revoking _ => true
  | .held _ => false
  | .free => false

theorem Claim.isRevoking_iff {c : Claim} : c.isRevoking = true ↔ ∃ p, c = .revoking p := by
  cases c <;> simp [Claim.isRevoking]

/-- The revocation of a plane or of a bank. -/
def State.revoke (field : Byte) (s : State) : Resource → State
  | .plane q => State.revokePlane field s q
  | .bank b => State.revokeBank field s b

/-- The resources in the order of stage (b). -/
def allResources : List Resource := allPlanes.map .plane ++ allBanks.map .bank

theorem mem_allResources (r : Resource) : r ∈ allResources := by
  cases r with
  | plane q => exact List.mem_append_left _ (List.mem_map_of_mem (mem_allPlanes q))
  | bank b => exact List.mem_append_right _ (List.mem_map_of_mem ((by decide : ∀ b : Bank, b ∈ allBanks) b))

theorem State.revocationsCompleted_eq (s : State) (field : Byte) :
    s.revocationsCompleted field = allResources.foldl (State.revoke field) s := by
  unfold State.revocationsCompleted allResources
  rw [List.foldl_append, List.foldl_map, List.foldl_map]
  rfl

/-! ### One resource -/

/-- A resource that is not Revoking stays as it is. -/
theorem State.revoke_of_not_revoking {s : State} {r : Resource} (h : (s.claimOf r).isRevoking = false) (field : Byte) :
    s.revoke field r = s := by
  cases r with
  | plane q =>
    change (s.planeClaims[q]).isRevoking = false at h
    show State.revokePlane field s q = s
    unfold State.revokePlane
    cases hc : s.planeClaims[q] with
    | revoking p => rw [hc] at h; cases h
    | held p => rfl
    | free => rfl
  | bank b =>
    change (s.bankClaims[b]).isRevoking = false at h
    show State.revokeBank field s b = s
    unfold State.revokeBank
    cases hc : s.bankClaims[b] with
    | revoking p => rw [hc] at h; cases h
    | held p => rfl
    | free => rfl

/-- The Live State without the resource that port p gives up. -/
def State.liveWithout (s : State) (p : Port) : Resource → Live
  | .plane q => s.live.takeDown q
  | .bank b => { s.live with planes := Vector.ofFn (unnamed s p b) }

theorem State.revoke_of_revoking {s : State} {r : Resource} {p : Port} (h : s.claimOf r = .revoking p) (field : Byte) :
    s.revoke field r = ({ s.setClaim r .free with live := s.liveWithout p r } : State).post p (claimRevoked field r) := by
  cases r with
  | plane q =>
    change s.planeClaims[q] = .revoking p at h
    show State.revokePlane field s q = _
    unfold State.revokePlane
    simp only [h]
    rfl
  | bank b =>
    change s.bankClaims[b] = .revoking p at h
    show State.revokeBank field s b = _
    unfold State.revokeBank
    simp only [h]
    rfl

/-- The plane of port p loses the name of bank b, no other plane and no other name changes. -/
theorem unnamed_eq (s : State) (p : Port) (b : Bank) (q : Plane) :
    unnamed s p b q =
      { s.live.planes[q] with
        palette := s.live.planes[q].palette.filter fun c => !(c == b && s.planeOwner q == some p) } := by
  unfold unnamed
  dsimp only
  obtain ⟨enabled, rect, source, fill, palette, mode⟩ := s.live.planes[q]
  cases palette with
  | none => simp
  | some c =>
    by_cases hc : c = b
    · by_cases ho : s.planeOwner q = some p <;> simp [Option.filter, hc, ho]
    · simp [Option.filter, hc]

theorem State.setClaim_claimOf (s : State) (r k : Resource) (c : Claim) :
    (s.setClaim r c).claimOf k = if k = r then c else s.claimOf k := by
  cases r <;> cases k <;>
    simp [State.setClaim, State.claimOf, State.setPlaneClaim, State.setBankClaim, Vector.getElem_set, Fin.ext_iff, eq_comm]

/-- What the revocation of one resource writes: its claim, the picture of a plane, and the queue of its former owner. -/
theorem State.revoke_revokes {s : State} {r : Resource} {p : Port} (h : s.claimOf r = .revoking p) (field : Byte) :
    (s.revoke field r).live = s.liveWithout p r
    ∧ (∀ k, (s.revoke field r).claimOf k = if k = r then .free else s.claimOf k)
    ∧ (∀ k, (s.revoke field r).session k = s.session k)
    ∧ ∀ k, (s.revoke field r).noticeQueue k = s.queueTold k (if k = p then [claimRevoked field r] else []) := by
  have hkind : (claimRevoked field r).kind ≠ .sessionEnded := by simp [claimRevoked, Notice.plain]
  have hqueue := State.post_queueTold hkind { s.setClaim r .free with live := s.liveWithout p r } p
  have hclaim := fun k => s.setClaim_claimOf r k .free
  obtain ⟨v, hv⟩ := State.sameButQueues_post { s.setClaim r .free with live := s.liveWithout p r } p (claimRevoked field r)
  rw [State.revoke_of_revoking h]
  refine ⟨by rw [hv], fun k => ?_, fun k => ?_, fun k => (hqueue k).trans ?_⟩
  · rw [hv, ← hclaim]
    cases k <;> rfl
  · rw [hv]
    cases r <;> rfl
  · cases r <;> rfl

/-! ### The resources of a list -/

/-- The resource stands in the list and is Revoking. -/
def State.revokesIn (s : State) (rs : List Resource) (r : Resource) : Bool :=
  decide (r ∈ rs) && (s.claimOf r).isRevoking

/-- What the revocations tell port p (R134). -/
def State.revokedNotices (s : State) (field : Byte) (rs : List Resource) (p : Port) : List Notice :=
  (rs.filter fun r => s.claimOf r == .revoking p).map (claimRevoked field)

/-- What the revocations of the resources make of a state, but for the palette names. -/
structure State.Revoked (s : State) (field : Byte) (rs : List Resource) (t : State) : Prop where
  planes (q : Plane) : t.live.planes[q] =
    { s.live.planes[q] with
      enabled := if s.revokesIn rs (.plane q) then false else s.live.planes[q].enabled
      palette := t.live.planes[q].palette }
  guards (q : Plane) : t.live.guards[q] =
    if s.revokesIn rs (.plane q) then s.live.guards[q].map GuardRecord.disarm else s.live.guards[q]
  claims (r : Resource) : t.claimOf r = if s.revokesIn rs r then .free else s.claimOf r
  sessions (p : Port) : t.session p = s.session p
  queues (p : Port) : t.noticeQueue p = s.queueTold p (s.revokedNotices field rs p)

theorem State.revoked_nil (s : State) (field : Byte) : s.Revoked field [] s := by
  have hnone : s.revokesIn [] = fun _ => false := by
    funext r
    simp [State.revokesIn]
  constructor <;> simp [hnone, State.revokedNotices]

/-- One resource. -/
theorem State.revoked_revoke (s : State) (field : Byte) (r : Resource) : s.Revoked field [r] (s.revoke field r) := by
  cases h : (s.claimOf r).isRevoking with
  | false =>
    have hnone : s.revokesIn [r] = fun _ => false := by
      funext k
      by_cases hk : k = r
      · subst hk
        simp [State.revokesIn, h]
      · simp [State.revokesIn, hk]
    have hne : ∀ p, s.claimOf r ≠ .revoking p := fun p hp => by simp [hp, Claim.isRevoking] at h
    rw [State.revoke_of_not_revoking h]
    constructor <;> simp [hnone, State.revokedNotices, hne]
  | true =>
    obtain ⟨p, hp⟩ := Claim.isRevoking_iff.1 h
    have hin : ∀ k, s.revokesIn [r] k = decide (k = r) := fun k => by
      by_cases hk : k = r
      · subst hk
        simp [State.revokesIn, h]
      · simp [State.revokesIn, hk]
    obtain ⟨hlive, hclaims, hsessions, hqueues⟩ := State.revoke_revokes hp field
    refine ⟨fun q => ?_, fun q => ?_, fun k => ?_, hsessions, fun k => ?_⟩
    · rw [hlive, hin]
      cases r with
      | plane k =>
        rw [State.liveWithout, Live.takeDown_planes]
        by_cases hq : q = k <;> simp [hq]
      | bank b =>
        simp only [State.liveWithout, Fin.getElem_fin, Vector.getElem_ofFn, Fin.eta, unnamed_eq, reduceCtorEq, decide_false,
          Bool.false_eq_true, if_false]
    · rw [hlive, hin]
      cases r with
      | plane k =>
        rw [State.liveWithout, Live.takeDown_guards]
        by_cases hq : q = k <;> simp [hq]
      | bank b => simp [State.liveWithout]
    · simp [hclaims, hin]
    · rw [hqueues]
      by_cases hk : k = p
      · simp [State.revokedNotices, hk, hp]
      · simp [State.revokedNotices, hk, hp, Ne.symm hk]

/-- One resource more, that does not come again. -/
theorem State.Revoked.cons {s u t : State} {field : Byte} {r : Resource} {rest : List Resource} (hr : r ∉ rest)
    (hfirst : s.Revoked field [r] u) (h : u.Revoked field rest t) : s.Revoked field (r :: rest) t := by
  have hclaim : ∀ k, k ≠ r → u.claimOf k = s.claimOf k := fun k hk => by
    simp [hfirst.claims, State.revokesIn, hk]
  have hin : ∀ k, s.revokesIn (r :: rest) k = (s.revokesIn [r] k || u.revokesIn rest k) := fun k => by
    by_cases hk : k = r
    · subst hk
      simp [State.revokesIn, hr]
    · simp [State.revokesIn, hk, hclaim]
  refine ⟨fun q => ?_, fun q => ?_, fun k => ?_, fun p => ?_, fun p => ?_⟩
  · rw [h.planes, hfirst.planes, hin]
    cases s.revokesIn [r] (.plane q) <;> simp
  · have htwice : GuardRecord.disarm ∘ GuardRecord.disarm = GuardRecord.disarm := rfl
    rw [h.guards, hfirst.guards, hin]
    cases s.revokesIn [r] (.plane q) <;> simp [htwice]
  · rw [h.claims, hfirst.claims, hin]
    cases s.revokesIn [r] k <;> simp
  · rw [h.sessions, hfirst.sessions]
  · have hnotices : u.revokedNotices field rest p = s.revokedNotices field rest p := by
      unfold State.revokedNotices
      rw [List.filter_congr fun k hk => by rw [hclaim k fun he => hr (he ▸ hk)]]
    have happend : s.revokedNotices field (r :: rest) p = s.revokedNotices field [r] p ++ s.revokedNotices field rest p := by
      unfold State.revokedNotices
      rw [← List.map_append, ← List.filter_append, List.singleton_append]
    rw [h.queues, State.queueTold_append (hfirst.sessions p) (hfirst.queues p), hnotices, happend]

theorem State.foldl_revoke {rs : List Resource} (hrs : rs.Nodup) (s : State) (field : Byte) :
    s.Revoked field rs (rs.foldl (State.revoke field) s) := by
  induction rs generalizing s with
  | nil => exact s.revoked_nil field
  | cons r rest ih =>
    obtain ⟨hr, hrest⟩ := List.nodup_cons.1 hrs
    exact (s.revoked_revoke field r).cons hr (ih hrest _)

/-! ### The palette names -/

/-- The plane's owner is the former owner of bank b. -/
def State.losesBank (s : State) (b : Bank) (q : Plane) : Bool :=
  (s.planeOwner q).any fun p => s.claimOf (.bank b) == .revoking p

theorem State.revokeBank_palette (s : State) (field : Byte) (b : Bank) (q : Plane) :
    (s.revoke field (.bank b)).live.planes[q].palette =
      s.live.planes[q].palette.filter fun c => !(c == b && s.losesBank b q) := by
  cases h : (s.claimOf (.bank b)).isRevoking with
  | false =>
    have hne : ∀ p, s.claimOf (.bank b) ≠ .revoking p := fun p hp => by simp [hp, Claim.isRevoking] at h
    have hkeeps : s.losesBank b q = false := by
      unfold State.losesBank
      cases s.planeOwner q with
      | none => rfl
      | some o => exact beq_eq_false_iff_ne.2 (hne o)
    rw [State.revoke_of_not_revoking h, hkeeps]
    cases s.live.planes[q].palette <;> simp [Option.filter]
  | true =>
    obtain ⟨p, hp⟩ := Claim.isRevoking_iff.1 h
    have hloses : s.losesBank b q = (s.planeOwner q == some p) := by
      unfold State.losesBank
      rw [hp]
      cases s.planeOwner q with
      | none => rfl
      | some o =>
        rw [Option.any_some, Bool.eq_iff_iff, beq_iff_eq, beq_iff_eq, Claim.revoking.injEq, Option.some.injEq, eq_comm]
    obtain ⟨hlive, -, -, -⟩ := State.revoke_revokes hp field
    rw [hlive, hloses]
    simp only [State.liveWithout, Fin.getElem_fin, Vector.getElem_ofFn, Fin.eta, unnamed_eq]

theorem State.foldl_revokeBank_palette {banks : List Bank} (hbanks : banks.Nodup) (s : State) (field : Byte) (q : Plane) :
    ((banks.map Resource.bank).foldl (State.revoke field) s).live.planes[q].palette =
      s.live.planes[q].palette.filter fun c => !(decide (c ∈ banks) && s.losesBank c q) := by
  induction banks generalizing s with
  | nil =>
    rw [List.map_nil, List.foldl_nil]
    cases s.live.planes[q].palette <;> simp [Option.filter]
  | cons b rest ih =>
    obtain ⟨hb, hrest⟩ := List.nodup_cons.1 hbanks
    have hclaims := (s.revoked_revoke field (.bank b)).claims
    have hothers : ∀ c ≠ b, (s.revoke field (.bank b)).losesBank c q = s.losesBank c q := fun c hc => by
      have howner : (s.revoke field (.bank b)).planeOwner q = s.planeOwner q :=
        congrArg Claim.owner ((hclaims (.plane q)).trans (if_neg (by simp [State.revokesIn])))
      unfold State.losesBank
      rw [howner, hclaims, if_neg (by simp [State.revokesIn, hc])]
    rw [List.map_cons, List.foldl_cons, ih hrest, State.revokeBank_palette, Option.filter_filter]
    congr 1
    funext c
    by_cases hc : c = b
    · subst hc
      simp [hb]
    · simp [hc, hothers c hc]

theorem State.foldl_revokePlane_palette (planes : List Plane) (s : State) (field : Byte) (q : Plane) :
    ((planes.map Resource.plane).foldl (State.revoke field) s).live.planes[q].palette = s.live.planes[q].palette := by
  induction planes generalizing s with
  | nil => rfl
  | cons k rest ih =>
    rw [List.map_cons, List.foldl_cons, ih]
    cases h : (s.claimOf (.plane k)).isRevoking with
    | false => rw [State.revoke_of_not_revoking h]
    | true =>
      obtain ⟨p, hp⟩ := Claim.isRevoking_iff.1 h
      obtain ⟨hlive, -, -, -⟩ := State.revoke_revokes hp field
      rw [hlive, State.liveWithout, Live.takeDown_planes]
      split <;> rfl

/-- After all revocations a plane names its bank no more when the bank was Revoking under the plane's holder. -/
theorem State.revocationsCompleted_palette (s : State) (field : Byte) (q : Plane) :
    (s.revocationsCompleted field).live.planes[q].palette =
      match s.live.planes[q].palette, s.claimOf (.plane q) with
      | some b, .held p => if s.claimOf (.bank b) = .revoking p then none else some b
      | other, _ => other := by
  have hplanes := s.foldl_revoke (rs := allPlanes.map .plane) (by decide) field
  have hpalette := s.foldl_revokePlane_palette allPlanes field q
  rw [State.revocationsCompleted_eq, allResources, List.foldl_append]
  generalize (allPlanes.map Resource.plane).foldl (State.revoke field) s = u at hplanes hpalette
  have hall : ∀ b : Bank, b ∈ allBanks := by decide
  have hbank : ∀ b, u.claimOf (.bank b) = s.claimOf (.bank b) := fun b => by
    rw [hplanes.claims, if_neg (by simp [State.revokesIn])]
  have howner : u.planeOwner q = if (s.claimOf (.plane q)).isRevoking then none else (s.claimOf (.plane q)).owner := by
    refine (congrArg Claim.owner (hplanes.claims (.plane q))).trans ?_
    simp only [State.revokesIn, List.mem_map_of_mem (mem_allPlanes q), decide_true, Bool.true_and]
    split <;> rfl
  rw [State.foldl_revokeBank_palette (by decide), hpalette]
  simp only [State.losesBank, hall, hbank, howner, decide_true, Bool.true_and]
  cases s.live.planes[q].palette with
  | none => rfl
  | some b =>
    cases s.claimOf (.plane q) with
    | free => rfl
    | revoking p => rfl
    | held p => by_cases hb : s.claimOf (.bank b) = .revoking p <;> simp [Claim.isRevoking, Claim.owner, hb]

/-! ### The stage -/

theorem nodup_allResources : allResources.Nodup := by decide

theorem State.revoked_revocationsCompleted (s : State) (field : Byte) :
    s.Revoked field allResources (s.revocationsCompleted field) :=
  s.revocationsCompleted_eq field ▸ s.foldl_revoke nodup_allResources field

theorem exec_stageBRevocations {s : State} {w : Window} (hn : s.nreset = true) (hw : s.window = some w)
    (hstage : w.stage = .revocations) :
    exec .stageBRevocations s = .next { s.revocationsCompleted w.field with window := some { w with stage := .scan } } := by
  show execStageBRevocations s = _
  simp only [execStageBRevocations, State.revocationsCompleted, hn, hw, hstage, Bool.true_and, beq_self_eq_true, if_true]

/-- Settles O49: one induction over the resources, planes first, and one over the banks for the palette names. -/
theorem stageBCompletesEveryRevocation : Obligations.StageBCompletesEveryRevocation := by
  unfold Obligations.StageBCompletesEveryRevocation
  intro s w hn hw hstage revoking revoked
  have hexec := exec_stageBRevocations hn hw hstage
  have hrevoked := s.revoked_revocationsCompleted w.field
  have hpalette := s.revocationsCompleted_palette w.field
  obtain ⟨pl, g, pc, bc, v, hframe⟩ := s.revocationsCompleted_frame w.field
  generalize s.revocationsCompleted w.field = t at hexec hrevoked hpalette hframe
  have hin : ∀ r, s.revokesIn allResources r = revoking (s.claimOf r) := fun r => by
    rw [State.revokesIn, decide_eq_true (mem_allResources r), Bool.true_and]
    cases s.claimOf r <;> rfl
  have hnotices : ∀ p, s.revokedNotices w.field allResources p =
      (allPlanes.filter fun q => s.claimOf (.plane q) == .revoking p).map (fun q => revoked (.plane q) 0)
        ++ (allBanks.filter fun b => s.claimOf (.bank b) == .revoking p).map fun b => revoked (.bank b) 1 := fun p => by
    simp only [State.revokedNotices, allResources, List.filter_append, List.map_append, List.filter_map, List.map_map]
    rfl
  obtain ⟨hplanes, hguards, hclaims, -, hqueues⟩ := hrevoked
  simp only [hin] at hplanes hguards hclaims
  simp only [State.queueTold, hnotices] at hqueues
  refine ⟨_, hexec, fun q => ⟨?_, hguards q⟩, hclaims, hqueues, by rw [hframe]⟩
  refine (hplanes q).trans ?_
  rw [hpalette] <;> rfl

end Sys2Proof.Machine
end
